-- ==== Sys2Proof/Word.lean ====
section
/-! DEFINITION. The word types of the block: registers and command words are 32 bits wide (10_state.md R20),
host memory and the weighting matrices are made of bytes (20_memory.md R60, 10_state.md R35). -/

namespace Sys2Proof

/-- A register or command word (10 R20, 30 R80). -/
abbrev Word := BitVec 32

/-- A byte of host memory or of a weighting matrix (20 R61, 10 R35). -/
abbrev Byte := BitVec 8

end Sys2Proof
end

