-- ==== Sys2Proof/Syntax.lean ====
section
/-! DEFINITION. The thirteen commands of spec/opcode_table.json (30_encoding.md R81) as one inductive, with the
operands of 30 R84. -/

namespace Sys2Proof

/-- A colour component, the operand cc of DEC_INTRA (30 R84): Y, Cb or Cr. -/
inductive Component where
  | y
  | cb
  | cr
  deriving DecidableEq, Repr

/-- A weighting matrix, the operand sel of QM_LOAD (30 R84): QM_INTRA or QM_INTER. -/
inductive WeightSel where
  | intra
  | inter
  deriving DecidableEq, Repr

/-- A command, one constructor per row of the opcode map (30 R81). -/
inductive Instr where
  /-- NOP (40 R134). -/
  | nop
  /-- PEEK n (40 R135). -/
  | peek (n : Nat)
  /-- CONSUME n (40 R136). -/
  | consume (n : Nat)
  /-- GET n (40 R137). -/
  | get (n : Nat)
  /-- ALIGN (40 R138). -/
  | align
  /-- SCAN_ANY (41 R152). -/
  | scanAny
  /-- SCAN_CODE xx (41 R153). -/
  | scanCode (xx : Byte)
  /-- SLICE_HDR (44 R252). -/
  | sliceHdr
  /-- DC_RESET (44 R253). -/
  | dcReset
  /-- DEC_INTRA cc (42 R190). -/
  | decIntra (cc : Component)
  /-- DEC_NONINTRA (42 R191). -/
  | decNonintra
  /-- QM_DEFAULT sel (43 R233): bit 0 of sel selects the intra matrix, bit 1 the non-intra matrix (30 R84). -/
  | qmDefault (intra inter : Bool)
  /-- QM_LOAD sel (43 R234). -/
  | qmLoad (m : WeightSel)
  deriving DecidableEq, Repr

end Sys2Proof
end

