-- ==== Sys2Proof/WellFormed.lean ====
section
/-! DEFINITION. Which instruction terms are commands of the block: the legal ranges of the A field (30_encoding.md R81)
that the operand types do not enforce themselves. -/

namespace Sys2Proof

/-- The largest bit count of PEEK, CONSUME and GET, the parameter P_WORD (00 R5). -/
def maxBitCount : Nat := 32

/-- The operands of `i` lie in the legal range of its row (30 R81): a bit count is at most 32, and QM_DEFAULT selects at
least one matrix. -/
def Instr.wellFormed : Instr → Bool
  | .nop => true
  | .peek n => decide (n ≤ maxBitCount)
  | .consume n => decide (n ≤ maxBitCount)
  | .get n => decide (n ≤ maxBitCount)
  | .align => true
  | .scanAny => true
  | .scanCode _ => true
  | .sliceHdr => true
  | .dcReset => true
  | .decIntra _ => true
  | .decNonintra => true
  | .qmDefault intra inter => intra || inter
  | .qmLoad _ => true

end Sys2Proof
end

