-- ==== Sys2Proof/Decode.lean ====
section
/-! DEFINITION. The command word (30_encoding.md R80): a decoder, total on every 32-bit word and rejecting by name, and
the encoder written from the same opcode map (30 R81). -/

namespace Sys2Proof

/-- Why a word is an illegal command (30 R82). -/
inductive DecodeError where
  /-- The Z field is not 0. -/
  | reservedNonzero
  /-- OP is not in the opcode map. -/
  | unknownOpcode
  /-- A lies outside the legal range of the row. -/
  | argumentOutOfRange
  deriving DecidableEq, Repr

/-- Field OP, bits 7:0 (30 R80). -/
def opField (w : Word) : Byte := w.extractLsb' 0 8

/-- Field A, bits 15:8 (30 R80). -/
def argField (w : Word) : Byte := w.extractLsb' 8 8

/-- Field Z, bits 31:16 (30 R80). -/
def zField (w : Word) : BitVec 16 := w.extractLsb' 16 16

/-- A row whose A must be 0 (30 R84). -/
def decodeNoOperand (a : Byte) (i : Instr) : Except DecodeError Instr :=
  if a = 0 then .ok i else .error .argumentOutOfRange

/-- A row whose A is a bit count 0..32 (30 R84). -/
def decodeCount (a : Byte) (mk : Nat → Instr) : Except DecodeError Instr :=
  if a.toNat ≤ maxBitCount then .ok (mk a.toNat) else .error .argumentOutOfRange

/-- DEC_INTRA: A is 0 (Y), 1 (Cb) or 2 (Cr) (30 R84). -/
def decodeComponent (a : Byte) : Except DecodeError Instr :=
  if a = 0 then .ok (.decIntra .y)
  else if a = 1 then .ok (.decIntra .cb)
  else if a = 2 then .ok (.decIntra .cr)
  else .error .argumentOutOfRange

/-- QM_DEFAULT: A is 1..3, bit 0 intra and bit 1 non-intra (30 R84). -/
def decodeQmDefault (a : Byte) : Except DecodeError Instr :=
  if 1 ≤ a.toNat ∧ a.toNat ≤ 3 then .ok (.qmDefault (a.getLsbD 0) (a.getLsbD 1)) else .error .argumentOutOfRange

/-- QM_LOAD: A is 1 (intra) or 2 (non-intra) (30 R84). -/
def decodeQmLoad (a : Byte) : Except DecodeError Instr :=
  if a = 1 then .ok (.qmLoad .intra)
  else if a = 2 then .ok (.qmLoad .inter)
  else .error .argumentOutOfRange

/-- The opcode map (30 R81), row by row. -/
def decodeRow (op a : Byte) : Except DecodeError Instr :=
  if op = 0x00 then decodeNoOperand a .nop
  else if op = 0x01 then decodeCount a .peek
  else if op = 0x02 then decodeCount a .consume
  else if op = 0x03 then decodeCount a .get
  else if op = 0x04 then decodeNoOperand a .align
  else if op = 0x08 then decodeNoOperand a .scanAny
  else if op = 0x09 then .ok (.scanCode a)
  else if op = 0x10 then decodeNoOperand a .sliceHdr
  else if op = 0x11 then decodeNoOperand a .dcReset
  else if op = 0x20 then decodeComponent a
  else if op = 0x21 then decodeNoOperand a .decNonintra
  else if op = 0x30 then decodeQmDefault a
  else if op = 0x31 then decodeQmLoad a
  else .error .unknownOpcode

/-- The command a word encodes, or why it is illegal: Z must be 0, OP must be a row's opcode and A must lie in the row's
legal range (30 R81, R82). -/
def decode (w : Word) : Except DecodeError Instr :=
  if zField w = 0 then decodeRow (opField w) (argField w) else .error .reservedNonzero

/-- The opcode of a command's row (30 R81). -/
def opcode : Instr → Byte
  | .nop => 0x00
  | .peek _ => 0x01
  | .consume _ => 0x02
  | .get _ => 0x03
  | .align => 0x04
  | .scanAny => 0x08
  | .scanCode _ => 0x09
  | .sliceHdr => 0x10
  | .dcReset => 0x11
  | .decIntra _ => 0x20
  | .decNonintra => 0x21
  | .qmDefault _ _ => 0x30
  | .qmLoad _ => 0x31

/-- The A field of a command (30 R84). -/
def argument : Instr → Byte
  | .nop => 0
  | .peek n => BitVec.ofNat 8 n
  | .consume n => BitVec.ofNat 8 n
  | .get n => BitVec.ofNat 8 n
  | .align => 0
  | .scanAny => 0
  | .scanCode xx => xx
  | .sliceHdr => 0
  | .dcReset => 0
  | .decIntra .y => 0
  | .decIntra .cb => 1
  | .decIntra .cr => 2
  | .decNonintra => 0
  | .qmDefault intra inter => BitVec.ofNat 8 (intra.toNat + 2 * inter.toNat)
  | .qmLoad .intra => 1
  | .qmLoad .inter => 2

/-- The command word of a command (30 R80, R85): Z = 0, then A, then OP. -/
def encode (i : Instr) : Word := BitVec.ofNat 32 ((argument i).toNat * 2 ^ 8 + (opcode i).toNat)

/-- What the decoder reads from an opcode-table word of `nbits` bits; a command is one 32-bit word (30 R80), so the bits
above `nbits` are 0, and a number that does not fit 32 bits is no command word. -/
def decodeTableWord (nbits w : Nat) : Option Instr :=
  let v := w % 2 ^ nbits
  if v < 2 ^ 32 then
    match decode (BitVec.ofNat 32 v) with
    | .ok i => some i
    | .error _ => none
  else none

end Sys2Proof
end

