-- ==== Sys2Proof/Config.lean ====
section
/-! DEFINITION. What is fixed for one block and is no state: the types of the constant tables (30_encoding.md R100-R105)
and the values the spec leaves open, as opaque constants. The tables' contents stand in Machine/Tables.lean. -/

namespace Sys2Proof

/-- One codeword of a code table (30 R100, R101, R103): its length in bits, the codeword read as a `len`-bit unsigned
number, and what it decodes to. -/
structure VlcRow (α : Type) where
  len : Nat
  code : Nat
  sym : α
  deriving DecidableEq, Repr

/-- A symbol of an AC table (30 R103). -/
inductive AcSym where
  | eob
  | esc
  | runLevel (run level : Nat)
  deriving DecidableEq, Repr

/-- An AC table (30 R103). -/
abbrev AcTable := List (VlcRow AcSym)

/-- The platform's choice REG_BASE (20 R66): the upper 22 bits of the 1 KiB aligned base of the register space. No rule
reads it (log 14). -/
opaque Config.regBase : BitVec 22

/-- What a host read returns in the bits of a register that the running command may write (70 R316): free, a new value
for each value of the counter (log 5). -/
opaque Config.freeRead : Nat → Word

/-- Which of the bytes a racing buffer address held is returned by one read (20 R69): free. The arguments name the read:
the counter, the cursor, the place in the command's rule and the bit index (log 6). -/
opaque Config.raceDraw : (draws off site i : Nat) → Nat

end Sys2Proof
end

