-- ==== Sys2Proof/Machine/Tables.lean ====
section
/-! DEFINITION. The constant tables of the block (00_scope.md R15): DC size tables, AC_TABLE_ZERO, the scans, the default
matrices and the non-linear quantizer scale (30_encoding.md R100-R114), and the parameter P_INTRA_K (00 R5). -/

namespace Sys2Proof.Machine

/-- The parameter P_INTRA_K: the rounding term k for intra AC coefficients (00 R5, 43 R222; log 13). -/
def pIntraK : Nat := 0

/-- DC_LUMA (30 R100). -/
def dcLuma : List (VlcRow Nat) := [
  ⟨3, 0b100, 0⟩,
  ⟨2, 0b00, 1⟩,
  ⟨2, 0b01, 2⟩,
  ⟨3, 0b101, 3⟩,
  ⟨3, 0b110, 4⟩,
  ⟨4, 0b1110, 5⟩,
  ⟨5, 0b11110, 6⟩,
  ⟨6, 0b111110, 7⟩,
  ⟨7, 0b1111110, 8⟩,
  ⟨8, 0b11111110, 9⟩,
  ⟨9, 0b111111110, 10⟩,
  ⟨9, 0b111111111, 11⟩]

/-- DC_CHROMA (30 R101). -/
def dcChroma : List (VlcRow Nat) := [
  ⟨2, 0b00, 0⟩,
  ⟨2, 0b01, 1⟩,
  ⟨2, 0b10, 2⟩,
  ⟨3, 0b110, 3⟩,
  ⟨4, 0b1110, 4⟩,
  ⟨5, 0b11110, 5⟩,
  ⟨6, 0b111110, 6⟩,
  ⟨7, 0b1111110, 7⟩,
  ⟨8, 0b11111110, 8⟩,
  ⟨9, 0b111111110, 9⟩,
  ⟨10, 0b1111111110, 10⟩,
  ⟨10, 0b1111111111, 11⟩]

/-- Rows 1 to 17 of AC_TABLE_ZERO (30 R104). -/
def acZeroRows1 : AcTable := [
  ⟨2, 0b10, .eob⟩,
  ⟨2, 0b11, .runLevel 0 1⟩,
  ⟨3, 0b011, .runLevel 1 1⟩,
  ⟨4, 0b0100, .runLevel 0 2⟩,
  ⟨4, 0b0101, .runLevel 2 1⟩,
  ⟨5, 0b00101, .runLevel 0 3⟩,
  ⟨5, 0b00111, .runLevel 3 1⟩,
  ⟨5, 0b00110, .runLevel 4 1⟩,
  ⟨6, 0b000110, .runLevel 1 2⟩,
  ⟨6, 0b000111, .runLevel 5 1⟩,
  ⟨6, 0b000101, .runLevel 6 1⟩,
  ⟨6, 0b000100, .runLevel 7 1⟩,
  ⟨7, 0b0000110, .runLevel 0 4⟩,
  ⟨7, 0b0000100, .runLevel 2 2⟩,
  ⟨7, 0b0000111, .runLevel 8 1⟩,
  ⟨7, 0b0000101, .runLevel 9 1⟩,
  ⟨6, 0b000001, .esc⟩]

/-- Rows 18 to 33 of AC_TABLE_ZERO (30 R104). -/
def acZeroRows18 : AcTable := [
  ⟨8, 0b00100110, .runLevel 0 5⟩,
  ⟨8, 0b00100001, .runLevel 0 6⟩,
  ⟨8, 0b00100101, .runLevel 1 3⟩,
  ⟨8, 0b00100100, .runLevel 3 2⟩,
  ⟨8, 0b00100111, .runLevel 10 1⟩,
  ⟨8, 0b00100011, .runLevel 11 1⟩,
  ⟨8, 0b00100010, .runLevel 12 1⟩,
  ⟨8, 0b00100000, .runLevel 13 1⟩,
  ⟨10, 0b0000001010, .runLevel 0 7⟩,
  ⟨10, 0b0000001100, .runLevel 1 4⟩,
  ⟨10, 0b0000001011, .runLevel 2 3⟩,
  ⟨10, 0b0000001111, .runLevel 4 2⟩,
  ⟨10, 0b0000001001, .runLevel 5 2⟩,
  ⟨10, 0b0000001110, .runLevel 14 1⟩,
  ⟨10, 0b0000001101, .runLevel 15 1⟩,
  ⟨10, 0b0000001000, .runLevel 16 1⟩]

/-- Rows 34 to 49 of AC_TABLE_ZERO (30 R104). -/
def acZeroRows34 : AcTable := [
  ⟨12, 0b000000011101, .runLevel 0 8⟩,
  ⟨12, 0b000000011000, .runLevel 0 9⟩,
  ⟨12, 0b000000010011, .runLevel 0 10⟩,
  ⟨12, 0b000000010000, .runLevel 0 11⟩,
  ⟨12, 0b000000011011, .runLevel 1 5⟩,
  ⟨12, 0b000000010100, .runLevel 2 4⟩,
  ⟨12, 0b000000011100, .runLevel 3 3⟩,
  ⟨12, 0b000000010010, .runLevel 4 3⟩,
  ⟨12, 0b000000011110, .runLevel 6 2⟩,
  ⟨12, 0b000000010101, .runLevel 7 2⟩,
  ⟨12, 0b000000010001, .runLevel 8 2⟩,
  ⟨12, 0b000000011111, .runLevel 17 1⟩,
  ⟨12, 0b000000011010, .runLevel 18 1⟩,
  ⟨12, 0b000000011001, .runLevel 19 1⟩,
  ⟨12, 0b000000010111, .runLevel 20 1⟩,
  ⟨12, 0b000000010110, .runLevel 21 1⟩]

/-- Rows 50 to 65 of AC_TABLE_ZERO (30 R104). -/
def acZeroRows50 : AcTable := [
  ⟨13, 0b0000000011010, .runLevel 0 12⟩,
  ⟨13, 0b0000000011001, .runLevel 0 13⟩,
  ⟨13, 0b0000000011000, .runLevel 0 14⟩,
  ⟨13, 0b0000000010111, .runLevel 0 15⟩,
  ⟨13, 0b0000000010110, .runLevel 1 6⟩,
  ⟨13, 0b0000000010101, .runLevel 1 7⟩,
  ⟨13, 0b0000000010100, .runLevel 2 5⟩,
  ⟨13, 0b0000000010011, .runLevel 3 4⟩,
  ⟨13, 0b0000000010010, .runLevel 5 3⟩,
  ⟨13, 0b0000000010001, .runLevel 9 2⟩,
  ⟨13, 0b0000000010000, .runLevel 10 2⟩,
  ⟨13, 0b0000000011111, .runLevel 22 1⟩,
  ⟨13, 0b0000000011110, .runLevel 23 1⟩,
  ⟨13, 0b0000000011101, .runLevel 24 1⟩,
  ⟨13, 0b0000000011100, .runLevel 25 1⟩,
  ⟨13, 0b0000000011011, .runLevel 26 1⟩]

/-- Rows 66 to 81 of AC_TABLE_ZERO (30 R104). -/
def acZeroRows66 : AcTable := [
  ⟨14, 0b00000000011111, .runLevel 0 16⟩,
  ⟨14, 0b00000000011110, .runLevel 0 17⟩,
  ⟨14, 0b00000000011101, .runLevel 0 18⟩,
  ⟨14, 0b00000000011100, .runLevel 0 19⟩,
  ⟨14, 0b00000000011011, .runLevel 0 20⟩,
  ⟨14, 0b00000000011010, .runLevel 0 21⟩,
  ⟨14, 0b00000000011001, .runLevel 0 22⟩,
  ⟨14, 0b00000000011000, .runLevel 0 23⟩,
  ⟨14, 0b00000000010111, .runLevel 0 24⟩,
  ⟨14, 0b00000000010110, .runLevel 0 25⟩,
  ⟨14, 0b00000000010101, .runLevel 0 26⟩,
  ⟨14, 0b00000000010100, .runLevel 0 27⟩,
  ⟨14, 0b00000000010011, .runLevel 0 28⟩,
  ⟨14, 0b00000000010010, .runLevel 0 29⟩,
  ⟨14, 0b00000000010001, .runLevel 0 30⟩,
  ⟨14, 0b00000000010000, .runLevel 0 31⟩]

/-- Rows 82 to 97 of AC_TABLE_ZERO (30 R104). -/
def acZeroRows82 : AcTable := [
  ⟨15, 0b000000000011000, .runLevel 0 32⟩,
  ⟨15, 0b000000000010111, .runLevel 0 33⟩,
  ⟨15, 0b000000000010110, .runLevel 0 34⟩,
  ⟨15, 0b000000000010101, .runLevel 0 35⟩,
  ⟨15, 0b000000000010100, .runLevel 0 36⟩,
  ⟨15, 0b000000000010011, .runLevel 0 37⟩,
  ⟨15, 0b000000000010010, .runLevel 0 38⟩,
  ⟨15, 0b000000000010001, .runLevel 0 39⟩,
  ⟨15, 0b000000000010000, .runLevel 0 40⟩,
  ⟨15, 0b000000000011111, .runLevel 1 8⟩,
  ⟨15, 0b000000000011110, .runLevel 1 9⟩,
  ⟨15, 0b000000000011101, .runLevel 1 10⟩,
  ⟨15, 0b000000000011100, .runLevel 1 11⟩,
  ⟨15, 0b000000000011011, .runLevel 1 12⟩,
  ⟨15, 0b000000000011010, .runLevel 1 13⟩,
  ⟨15, 0b000000000011001, .runLevel 1 14⟩]

/-- Rows 98 to 113 of AC_TABLE_ZERO (30 R104). -/
def acZeroRows98 : AcTable := [
  ⟨16, 0b0000000000010011, .runLevel 1 15⟩,
  ⟨16, 0b0000000000010010, .runLevel 1 16⟩,
  ⟨16, 0b0000000000010001, .runLevel 1 17⟩,
  ⟨16, 0b0000000000010000, .runLevel 1 18⟩,
  ⟨16, 0b0000000000010100, .runLevel 6 3⟩,
  ⟨16, 0b0000000000011010, .runLevel 11 2⟩,
  ⟨16, 0b0000000000011001, .runLevel 12 2⟩,
  ⟨16, 0b0000000000011000, .runLevel 13 2⟩,
  ⟨16, 0b0000000000010111, .runLevel 14 2⟩,
  ⟨16, 0b0000000000010110, .runLevel 15 2⟩,
  ⟨16, 0b0000000000010101, .runLevel 16 2⟩,
  ⟨16, 0b0000000000011111, .runLevel 27 1⟩,
  ⟨16, 0b0000000000011110, .runLevel 28 1⟩,
  ⟨16, 0b0000000000011101, .runLevel 29 1⟩,
  ⟨16, 0b0000000000011100, .runLevel 30 1⟩,
  ⟨16, 0b0000000000011011, .runLevel 31 1⟩]

/-- AC_TABLE_ZERO (30 R104): 113 codewords. -/
def acTableZero : AcTable :=
  acZeroRows1 ++ acZeroRows18 ++ acZeroRows34 ++ acZeroRows50 ++ acZeroRows66 ++ acZeroRows82 ++ acZeroRows98

/-- Rows 1 to 17 of the unverified candidate for AC_TABLE_ONE (93 Part 5). UNVERIFIED. -/
def acOneRows1 : AcTable := [
  ⟨4, 0b0110, .eob⟩,
  ⟨2, 0b10, .runLevel 0 1⟩,
  ⟨3, 0b010, .runLevel 1 1⟩,
  ⟨3, 0b110, .runLevel 0 2⟩,
  ⟨5, 0b00101, .runLevel 2 1⟩,
  ⟨4, 0b0111, .runLevel 0 3⟩,
  ⟨5, 0b00111, .runLevel 3 1⟩,
  ⟨6, 0b000110, .runLevel 4 1⟩,
  ⟨5, 0b00110, .runLevel 1 2⟩,
  ⟨6, 0b000111, .runLevel 5 1⟩,
  ⟨7, 0b0000110, .runLevel 6 1⟩,
  ⟨7, 0b0000100, .runLevel 7 1⟩,
  ⟨5, 0b11100, .runLevel 0 4⟩,
  ⟨7, 0b0000111, .runLevel 2 2⟩,
  ⟨7, 0b0000101, .runLevel 8 1⟩,
  ⟨7, 0b1111000, .runLevel 9 1⟩,
  ⟨6, 0b000001, .esc⟩]

/-- Rows 18 to 33 of the unverified candidate for AC_TABLE_ONE (93 Part 5). UNVERIFIED. -/
def acOneRows18 : AcTable := [
  ⟨5, 0b11101, .runLevel 0 5⟩,
  ⟨6, 0b000101, .runLevel 0 6⟩,
  ⟨7, 0b1111001, .runLevel 1 3⟩,
  ⟨8, 0b00100110, .runLevel 3 2⟩,
  ⟨7, 0b1111010, .runLevel 10 1⟩,
  ⟨8, 0b00100001, .runLevel 11 1⟩,
  ⟨8, 0b00100101, .runLevel 12 1⟩,
  ⟨8, 0b00100100, .runLevel 13 1⟩,
  ⟨6, 0b000100, .runLevel 0 7⟩,
  ⟨8, 0b00100111, .runLevel 1 4⟩,
  ⟨8, 0b11111100, .runLevel 2 3⟩,
  ⟨8, 0b11111101, .runLevel 4 2⟩,
  ⟨9, 0b000000100, .runLevel 5 2⟩,
  ⟨9, 0b000000101, .runLevel 14 1⟩,
  ⟨9, 0b000000111, .runLevel 15 1⟩,
  ⟨10, 0b0000001101, .runLevel 16 1⟩]

/-- Rows 34 to 49 of the unverified candidate for AC_TABLE_ONE (93 Part 5). UNVERIFIED. -/
def acOneRows34 : AcTable := [
  ⟨7, 0b1111011, .runLevel 0 8⟩,
  ⟨7, 0b1111100, .runLevel 0 9⟩,
  ⟨8, 0b00100011, .runLevel 0 10⟩,
  ⟨8, 0b00100010, .runLevel 0 11⟩,
  ⟨8, 0b00100000, .runLevel 1 5⟩,
  ⟨10, 0b0000001100, .runLevel 2 4⟩,
  ⟨12, 0b000000011100, .runLevel 3 3⟩,
  ⟨12, 0b000000010010, .runLevel 4 3⟩,
  ⟨12, 0b000000011110, .runLevel 6 2⟩,
  ⟨12, 0b000000010101, .runLevel 7 2⟩,
  ⟨12, 0b000000010001, .runLevel 8 2⟩,
  ⟨12, 0b000000011111, .runLevel 17 1⟩,
  ⟨12, 0b000000011010, .runLevel 18 1⟩,
  ⟨12, 0b000000011001, .runLevel 19 1⟩,
  ⟨12, 0b000000010111, .runLevel 20 1⟩,
  ⟨12, 0b000000010110, .runLevel 21 1⟩]

/-- Rows 50 to 65 of the unverified candidate for AC_TABLE_ONE (93 Part 5). UNVERIFIED. -/
def acOneRows50 : AcTable := [
  ⟨8, 0b11111010, .runLevel 0 12⟩,
  ⟨8, 0b11111011, .runLevel 0 13⟩,
  ⟨8, 0b11111110, .runLevel 0 14⟩,
  ⟨8, 0b11111111, .runLevel 0 15⟩,
  ⟨13, 0b0000000010110, .runLevel 1 6⟩,
  ⟨13, 0b0000000010101, .runLevel 1 7⟩,
  ⟨13, 0b0000000010100, .runLevel 2 5⟩,
  ⟨13, 0b0000000010011, .runLevel 3 4⟩,
  ⟨13, 0b0000000010010, .runLevel 5 3⟩,
  ⟨13, 0b0000000010001, .runLevel 9 2⟩,
  ⟨13, 0b0000000010000, .runLevel 10 2⟩,
  ⟨13, 0b0000000011111, .runLevel 22 1⟩,
  ⟨13, 0b0000000011110, .runLevel 23 1⟩,
  ⟨13, 0b0000000011101, .runLevel 24 1⟩,
  ⟨13, 0b0000000011100, .runLevel 25 1⟩,
  ⟨13, 0b0000000011011, .runLevel 26 1⟩]

/-- The candidate for AC_TABLE_ONE that the spec gives and does not adopt (93 Part 5): UNVERIFIED. No definition of the
model uses it; a user may supply it as the parameter (log 4). -/
def acTableOneCandidate : AcTable :=
  acOneRows1 ++ acOneRows18 ++ acOneRows34 ++ acOneRows50 ++ acZeroRows66 ++ acZeroRows82 ++ acZeroRows98

/-- No codeword of the two is the start of the other (30 R103). -/
def codesApart {α : Type} (a b : VlcRow α) : Bool :=
  if a.len ≤ b.len then b.code >>> (b.len - a.len) != a.code else a.code >>> (a.len - b.len) != b.code

/-- No codeword of the table is the start of another (30 R103). -/
def prefixFree {α : Type} : List (VlcRow α) → Bool
  | [] => true
  | r :: rest => rest.all (codesApart r) && prefixFree rest

/-- A symbol's run is at most 63 and its level at least 1 (30 R103). -/
def symInRange : AcSym → Bool
  | .eob => true
  | .esc => true
  | .runLevel run level => decide (run ≤ 63) && decide (1 ≤ level)

/-- The form a value of AC_TABLE_ONE must have (30 R103, R105): codewords of 1 to 16 bits, none the start of another,
symbols in range, with an EOB and the escape codeword 000001. -/
def acTableWellFormed (t : AcTable) : Bool :=
  t.all (fun r => decide (1 ≤ r.len) && decide (r.len ≤ 16) && decide (r.code < 2 ^ r.len) && symInRange r.sym) &&
    prefixFree t && t.any (fun r => r.sym == .eob) && t.any (fun r => r == ⟨6, 0b000001, .esc⟩)

/-- ZIGZAG (30 R110): the raster position of scan index n. -/
def zigzag : List Nat := [
  0, 1, 8, 16, 9, 2, 3, 10,
  17, 24, 32, 25, 18, 11, 4, 5,
  12, 19, 26, 33, 40, 48, 41, 34,
  27, 20, 13, 6, 7, 14, 21, 28,
  35, 42, 49, 56, 57, 50, 43, 36,
  29, 22, 15, 23, 30, 37, 44, 51,
  58, 59, 52, 45, 38, 31, 39, 46,
  53, 60, 61, 54, 47, 55, 62, 63]

/-- ALTSCAN (30 R111). -/
def altScan : List Nat := [
  0, 8, 16, 24, 1, 9, 2, 10,
  17, 25, 32, 40, 48, 56, 57, 49,
  41, 33, 26, 18, 3, 11, 4, 12,
  19, 27, 34, 42, 50, 58, 35, 43,
  51, 59, 20, 28, 5, 13, 6, 14,
  21, 29, 36, 44, 52, 60, 37, 45,
  53, 61, 22, 30, 7, 15, 23, 31,
  38, 46, 54, 62, 39, 47, 55, 63]

/-- The default intra matrix in raster order (30 R112). -/
def defaultIntra : Vector Byte 64 := #v[
  8, 16, 19, 22, 26, 27, 29, 34,
  16, 16, 22, 24, 27, 29, 34, 37,
  19, 22, 26, 27, 29, 34, 34, 38,
  22, 22, 26, 27, 29, 34, 37, 40,
  22, 26, 27, 29, 32, 35, 40, 48,
  26, 27, 29, 32, 35, 40, 48, 58,
  26, 27, 29, 34, 38, 46, 56, 69,
  27, 29, 35, 38, 46, 56, 69, 83]

/-- The default non-intra matrix: 16 in all 64 entries (30 R112). -/
def defaultInter : Vector Byte 64 := Vector.replicate 64 16

/-- NL_QSCALE, the non-linear quantizer scale (30 R113). -/
def nlQscale : List Nat := [
  0, 1, 2, 3, 4, 5, 6, 7,
  8, 10, 12, 14, 16, 18, 20, 22,
  24, 28, 32, 36, 40, 44, 48, 52,
  56, 64, 72, 80, 88, 96, 104, 112]

end Sys2Proof.Machine
end

