-- ==== Sys2Proof/Machine/State.lean ====
section
/-! DEFINITION. The state of the block, of host memory and of the host's side of the register interface, as plain data,
the reasons a step can stop, and the state after reset (10_state.md R20-R39). -/

namespace Sys2Proof.Machine

/-- Host memory (20 R60, R61): address and byte, addresses strictly rising; an unlisted address holds no byte, and the
platform rejects a read of it (20 R73; log 7). -/
abbrev Memory := List Host.Cell

/-- The configuration bits of CFG (10 R27). -/
structure Cfg where
  mpeg2 : Bool
  qScaleType : Bool
  intraVlcFormat : Bool
  alternateScan : Bool
  intraDcPrecision : BitVec 2
  deriving DecidableEq, Repr

/-- One entry of the coefficient list (10 R34). -/
structure Entry where
  value : BitVec 16
  pos : BitVec 6
  deriving DecidableEq, Repr

/-- The result codes of STATUS.ERRCODE (60 R270). Codes 0x05 to 0xFF are never written. -/
inductive ResultCode where
  | ok
  | illegalCommand
  | invalidVertSize
  | mbTexDecodeErr
  | vlcInvalid
  deriving DecidableEq, Repr

/-- The agent that moves next (00 R14; log 1). -/
inductive Agent where
  | host
  | block
  deriving DecidableEq, Repr

/-- The width of a host register access (20 R67). -/
inductive AccessWidth where
  | byte
  | half
  | word
  deriving DecidableEq, Repr

/-- What the host and the platform can do to the block, one event at a time (70 R313; log 1). -/
inductive HostEvent where
  /-- A write of a register, by its byte offset in the register space (10 R20). -/
  | write (offset : BitVec 10) (width : AccessWidth) (value : Word)
  /-- A read of a register; the word read is put in `reads`. -/
  | read (offset : BitVec 10) (width : AccessWidth)
  /-- A store of one byte to host memory (20 R68, R69). -/
  | store (addr : Word) (value : Byte)
  /-- WAIT: poll STATUS until BUSY = 0 (30 R85). -/
  | waitIdle
  /-- Poll STATUS until DONE = 1 (70 R311; 93 S10). -/
  | waitDone
  /-- Time passes: the block has its turn (70 R318). -/
  | yield
  /-- The platform drives the reset input (70 R300). -/
  | reset
  deriving DecidableEq, Repr

/-- The machine. The first group is the state the spec gives the block (10 R39) and host memory; the second group is the
model's own (log 1, 4, 5, 6, 8, 17). -/
structure State where
  result : Word
  bsBase : Word
  bsLen : BitVec 28
  bsOffset : Word
  cfg : Cfg
  vertSize : BitVec 14
  mbRows : BitVec 11
  qscale : BitVec 7
  mbX : BitVec 16
  mbY : BitVec 16
  dcY : BitVec 16
  dcCb : BitVec 16
  dcCr : BitVec 16
  blkCount : BitVec 7
  rowMask : BitVec 8
  colMask : BitVec 8
  list : Vector Entry 64
  qmIntra : Vector Byte 64
  qmInter : Vector Byte 64
  done : Bool
  found : Bool
  overrun : Bool
  cmdErr : Bool
  errCode : ResultCode
  command : Option Word
  mem : Memory
  stuck : Bool
  earlier : List (Nat × Option Byte)
  turn : Agent
  agenda : List HostEvent
  reads : List Word
  draws : Nat
  acTableOne : Option AcTable
  deriving DecidableEq, Repr

/-- Why the model stops with a fault. -/
inductive Fault where
  /-- Raised by DEC_INTRA when it selects AC_TABLE_ONE and the parameter is not supplied (42 R178). Safe: the model stops
  where the hardware, which has a table, goes on. -/
  | acTableOneMissing
  deriving DecidableEq, Repr

/-- Why the model refuses to go on. -/
inductive Refusal where
  /-- Raised by no instruction that has a meaning: an arm of `exec` that is not modelled yet. Safe. -/
  | notModelled (mnemonic : String)
  /-- Raised by a host register access that is narrower than 32 bits or misaligned (20 R67, 93 S3). Safe: the model stops
  where the hardware ignores the write or returns 0. -/
  | undefinedRegisterAccess
  deriving DecidableEq, Repr

/-- The state right after reset (10 R39, 70 R300), with nothing listed in host memory, no host access pending and
AC_TABLE_ONE not supplied (log 2, 4, 7, 15). -/
def State.reset : State where
  result := 0
  bsBase := 0
  bsLen := 0
  bsOffset := 0
  cfg := ⟨false, false, false, false, 0⟩
  vertSize := 0
  mbRows := 0
  qscale := 0
  mbX := 0
  mbY := 0
  dcY := 128
  dcCb := 128
  dcCr := 128
  blkCount := 0
  rowMask := 0
  colMask := 0
  list := Vector.replicate 64 ⟨0, 0⟩
  qmIntra := defaultIntra
  qmInter := defaultInter
  done := false
  found := false
  overrun := false
  cmdErr := false
  errCode := .ok
  command := none
  mem := []
  stuck := false
  earlier := []
  turn := .host
  agenda := []
  reads := []
  draws := 0
  acTableOne := none

end Sys2Proof.Machine
end

