-- ==== Sys2Proof/Machine/Flags.lean ====
section
/-! DEFINITION. The flag computations: STATUS as a word (10_state.md R24), the W1C rule, the overrun rule
(40_bit_reader.md R131), the block's row and column masks (10_state.md R33) and the parity of a value
(43_inverse_quant.md R227). -/

namespace Sys2Proof.Machine

/-- The 8-bit value of a result code in STATUS.ERRCODE (60 R270). -/
def ResultCode.toByte : ResultCode → Byte
  | .ok => 0x00
  | .illegalCommand => 0x01
  | .invalidVertSize => 0x02
  | .mbTexDecodeErr => 0x03
  | .vlcInvalid => 0x04

/-- STATUS.BUSY: a command is in progress (10 R24; log 3). -/
def State.busy (s : State) : Bool := s.command.isSome

/-- The value of STATUS (10 R24): BUSY 0, DONE 1, FOUND 2, OVERRUN 3, CMDERR 4, ERRCODE 15:8, the rest 0. -/
def State.statusWord (s : State) : Word :=
  BitVec.ofNat 32 (s.busy.toNat + s.done.toNat * 2 ^ 1 + s.found.toNat * 2 ^ 2 + s.overrun.toNat * 2 ^ 3 +
    s.cmdErr.toNat * 2 ^ 4 + s.errCode.toByte.toNat * 2 ^ 8)

/-- A W1C flag after a write of `v` to STATUS (10 R24): writing 1 to its bit clears it, writing 0 leaves it. -/
def clearedByOne (flag : Bool) (bit : Nat) (v : Word) : Bool := flag && !v.getLsbD bit

/-- OVERRUN after the cursor is advanced to `new` (40 R131): sticky, and set when `new` lies past MAX. -/
def overrunAfter (old : Bool) (new max : Nat) : Bool := old || decide (max < new)

/-- ROWMASK with the bit of the row of raster position `p` set (10 R33, 42 R181). -/
def rowMaskWith (mask : BitVec 8) (p : Nat) : BitVec 8 := mask ||| BitVec.twoPow 8 (p / 8)

/-- COLMASK with the bit of the column of raster position `p` set (10 R33, 42 R181). -/
def colMaskWith (mask : BitVec 8) (p : Nat) : BitVec 8 := mask ||| BitVec.twoPow 8 (p % 8)

/-- The low bit of a value, which enters the parity accumulator (43 R227). -/
def lowBit (v : Int) : Bool := decide (v % 2 = 1)

end Sys2Proof.Machine
end

