-- ==== Sys2Proof/Machine/Ops.lean ====
section
/-! DEFINITION. The named operations over memory and registers: host memory (20_memory.md R61), the register updates the
commands make, the completion of a command, which is what takes the place of exception entry (60_exceptions.md R276,
70_reset_and_hazards.md R310), the hang of R73 and the reset of R300. -/

namespace Sys2Proof.Machine

/-! ## Host memory -/

/-- The canonical form: addresses strictly rising, each inside the 32-bit address space (20 R60). -/
def Memory.wf : Memory → Bool
  | [] => true
  | [c] => decide (c.1 < 2 ^ 32)
  | c :: d :: rest => decide (c.1 < d.1) && Memory.wf (d :: rest)

/-- The byte at address `a`; an unlisted address holds none (log 7). -/
def Memory.read : Memory → Nat → Option Byte
  | [], _ => none
  | c :: rest, a => if c.1 = a then some c.2 else Memory.read rest a

/-- A store of the byte `b` at address `a`, keeping the canonical form. -/
def Memory.write : Memory → Nat → Byte → Memory
  | [], a, b => [(a, b)]
  | c :: rest, a, b =>
    if a < c.1 then (a, b) :: c :: rest
    else if a = c.1 then (a, b) :: rest
    else c :: Memory.write rest a b

/-! ## The stream's end and the cursor -/

/-- MAX, the value of BS_MAX (10 R25): 8 * BS_LEN. -/
def State.maxBit (s : State) : Nat := 8 * s.bsLen.toNat

/-- `off`, the cursor as a number (00 R8). -/
def State.off (s : State) : Nat := s.bsOffset.toNat

/-- Consume(n) (40 R131): the cursor advances by n bits modulo 2^32; past MAX it sets OVERRUN. -/
def State.consume (s : State) (n : Nat) : State :=
  { s with bsOffset := BitVec.ofNat 32 (s.off + n), overrun := overrunAfter s.overrun (s.off + n) s.maxBit }

/-- Align() (40 R133). From a cursor of 0xFFFFFFF9 to 0xFFFFFFFF it wraps to 0 and sets OVERRUN (40 R131), so a scan that
starts there goes on from 0 with OVERRUN set; 41 R154 sums that case up otherwise (DEDUCED; log 27). -/
def State.align (s : State) : State :=
  if s.off % 8 = 0 then s else s.consume (8 - s.off % 8)

/-! ## Register updates -/

/-- RESULT <- zext_32(v) (10 R37). -/
def State.setResult (s : State) (v : Nat) : State := { s with result := BitVec.ofNat 32 v }

/-- The two registers a scan answers in: FOUND and RESULT (41 R150, R151). -/
def State.setScan (s : State) (found : Bool) (code : Nat) : State :=
  { s with found := found, result := BitVec.ofNat 32 code }

/-- MB_POS at a slice of row `row` (44 R250 step 3): MB_X restarts only when the row changes. -/
def State.enterRow (s : State) (row : Nat) : State :=
  if s.mbY = BitVec.ofNat 16 row then s else { s with mbX := 0, mbY := BitVec.ofNat 16 row }

/-- QSCALE <- v (10 R30). -/
def State.setQscale (s : State) (v : Nat) : State := { s with qscale := BitVec.ofNat 7 v }

/-- DC_PRED[c] (10 R32). -/
def State.dcPred (s : State) : Component → BitVec 16
  | .y => s.dcY
  | .cb => s.dcCb
  | .cr => s.dcCr

/-- DC_PRED[c] <- v (10 R32). -/
def State.setDcPred (s : State) (c : Component) (v : BitVec 16) : State :=
  match c with
  | .y => { s with dcY := v }
  | .cb => { s with dcCb := v }
  | .cr => { s with dcCr := v }

/-- DcReset() (44 R251): every predictor gets 128 << INTRA_DC_PRECISION. -/
def State.dcReset (s : State) : State :=
  let v := BitVec.ofNat 16 (128 * 2 ^ s.cfg.intraDcPrecision.toNat)
  { s with dcY := v, dcCb := v, dcCr := v }

/-- A weighting matrix (10 R35). -/
def State.matrix (s : State) : WeightSel → Vector Byte 64
  | .intra => s.qmIntra
  | .inter => s.qmInter

/-- A weighting matrix, replaced whole. -/
def State.setMatrix (s : State) (m : WeightSel) (q : Vector Byte 64) : State :=
  match m with
  | .intra => { s with qmIntra := q }
  | .inter => { s with qmInter := q }

/-- Entry p of a matrix <- b (10 R35, 43 R232). -/
def State.setWeight (s : State) (m : WeightSel) (p : Nat) (b : Byte) : State :=
  s.setMatrix m ((s.matrix m).setIfInBounds p b)

/-- The start of a DEC command (42 Part 2): the block output is cleared, the entries of LIST are not. -/
def State.clearOutput (s : State) : State := { s with blkCount := 0, rowMask := 0, colMask := 0 }

/-- Append(p, v) (42 R181), less the parity accumulator, which lives in the DEC command. -/
def State.append (s : State) (p : Nat) (v : Int) : State :=
  { s with
    list := s.list.setIfInBounds s.blkCount.toNat ⟨BitVec.ofInt 16 v, BitVec.ofNat 6 p⟩
    blkCount := s.blkCount + 1
    rowMask := rowMaskWith s.rowMask p
    colMask := colMaskWith s.colMask p }

/-- Entry i of LIST (10 R34). -/
def State.entry (s : State) (i : Nat) : Entry := s.list.getD i ⟨0, 0⟩

/-- The index of the last entry of LIST, when there is one. -/
def State.lastIndex (s : State) : Nat := s.blkCount.toNat - 1

/-- The low bit of the last entry's VALUE toggled, and the masks of position 63 set (43 R228). -/
def State.toggleLast (s : State) : State :=
  { s with
    list := s.list.setIfInBounds s.lastIndex ⟨(s.entry s.lastIndex).value ^^^ 1, (s.entry s.lastIndex).pos⟩
    rowMask := s.rowMask ||| 0x80
    colMask := s.colMask ||| 0x80 }

/-! ## How a command ends -/

/-- Complete(code) (70 R310, 60 R276): ERRCODE <- code, BUSY <- 0, DONE <- 1. The model's own fields: the race of the
command is over, its free values are used up, and the host may move (log 1, 6). -/
def State.complete (s : State) (code : ResultCode) : State :=
  { s with
    errCode := code
    command := none
    done := true
    stuck := false
    earlier := []
    turn := .host
    draws := s.draws + 1 }

/-- The command in progress met a read that the platform rejects (20 R73): it never completes. Nothing it would have
written can be observed: those registers read any value while BUSY = 1, and only a reset ends BUSY (70 R316, R300; log 8). -/
def State.hang (s : State) : State := { s with stuck := true, turn := .host }

/-- Reset() (70 R300): every register gets its reset value and the command in progress is abandoned; host memory is not
touched. The model's own fields that stand for the outside world keep their values, and the free values that the abandoned
command has drawn are used up, so that no later command draws them again (20 R69; log 6, 16). -/
def State.doReset (s : State) : State :=
  { State.reset with
    mem := s.mem
    agenda := s.agenda
    reads := s.reads
    draws := s.draws + 1
    acTableOne := s.acTableOne }

end Sys2Proof.Machine
end

