-- ==== Sys2Proof/Machine/Operands.lean ====
section
/-! DEFINITION. What a command takes from the bitstream: single bits (20_memory.md R63), Peek, Get (40_bit_reader.md R130,
R132) and the codewords of a prefix-code table (42_vld.md R170). Also the outcome of a part of a command and the number
conversions of 00_scope.md R7. -/

namespace Sys2Proof.Machine

/-- The outcome of a part of a command: it goes on with a value, or it ends the command with an error code and keeps what
was written (00 R10), or it met a rejected read (20 R73). -/
inductive Res (α : Type) where
  | ok (a : α) (s : State)
  | error (code : ResultCode) (s : State)
  | stuck

/-- The next part of a command runs on the value and the state of this one. -/
def Res.andThen {α β : Type} (r : Res α) (f : α → State → Res β) : Res β :=
  match r with
  | .ok a s => f a s
  | .error code s => .error code s
  | .stuck => .stuck

/-- A command's body, completed (70 R310): OK at its end, its code at an error, and no completion at a rejected read. -/
def runCommand (body : State → Res Unit) (s : State) : Host.Outcome State Fault Refusal :=
  match body s with
  | .ok _ t => .next (t.complete .ok)
  | .error code t => .next (t.complete code)
  | .stuck => .next s.hang

/-- clip_s12 (00 R7). -/
def clipS12 (v : Int) : Int := min (max v (-2048)) 2047

/-- sext_N (00 R7) of a number below 2^N. -/
def signExtend (n : Nat) (v : Nat) : Int := if v < 2 ^ (n - 1) then v else v - 2 ^ n

/-! ## Bits -/

/-- MemRead(addr, 1) (20 R61). A byte the host changed while this command was in progress reads as any of the values it
held, drawn anew at each read (20 R69; log 6): `site` and `i` name the read. -/
def State.memRead (s : State) (site i addr : Nat) : Option Byte :=
  let a := addr % 2 ^ 32
  let now := Memory.read s.mem a
  match s.earlier.filter (fun c => c.1 == a) with
  | [] => now
  | c :: cs =>
    ((now :: (c :: cs).map (·.2))[Config.raceDraw s.draws s.off site i % (cs.length + 2)]?).getD now

/-- Bit(i) (20 R63): bit 7 - (i mod 8) of byte i >> 3; 0 at and past MAX, without a memory read. -/
def State.bit (s : State) (site i : Nat) : Option Bool :=
  if i < s.maxBit then (s.memRead site i (s.bsBase.toNat + i / 8)).map (fun b => b.getLsbD (7 - i % 8))
  else some false

/-- The loop of Peek (40 R130): n more bits from index i, after the bits read so far. -/
def State.peekLoop (s : State) (site : Nat) : (n i v : Nat) → Option Nat
  | 0, _, v => some v
  | n + 1, i, v =>
    match s.bit site i with
    | none => none
    | some b => s.peekLoop site n (i + 1) (2 * v + b.toNat)

/-- Peek(n) (40 R130); none at a rejected read. -/
def State.peek (s : State) (n : Nat) : Option Nat := s.peekLoop n n s.off 0

/-- Get(n) (40 R132). -/
def State.get (s : State) (n : Nat) : Res Nat :=
  match s.peek n with
  | none => .stuck
  | some v => .ok v (s.consume n)

/-! ## Codewords -/

/-- The first read of row 0 of a table; Peek(n) names its reads by n ≤ 32 (log 6). -/
def vlcSite : Nat := 64

/-- The stream from index i starts with the `len`-bit codeword `code`. It reads no bit after the first that differs
(log 9). -/
def State.startsWith (s : State) (site code : Nat) : (len i : Nat) → Option Bool
  | 0, _ => some true
  | len + 1, i =>
    match s.bit site i with
    | none => none
    | some b => if b = code.testBit len then s.startsWith site code len (i + 1) else some false

/-- The row of the table whose codeword the stream starts with (42 R170). -/
def State.findRow {α : Type} (s : State) : List (VlcRow α) → Nat → Option (Option (VlcRow α))
  | [], _ => some none
  | r :: rest, site =>
    match s.startsWith site r.code r.len s.off with
    | none => none
    | some true => some (some r)
    | some false => s.findRow rest (site + 1)

/-- Vlc(T) (42 R170): the symbol of the codeword the stream starts with, its length consumed; none (INVALID) and nothing
consumed when no codeword matches. -/
def State.vlc {α : Type} (s : State) (table : List (VlcRow α)) : Res (Option α) :=
  match s.findRow table vlcSite with
  | none => .stuck
  | some none => .ok none s
  | some (some r) => .ok (some r.sym) (s.consume r.len)

end Sys2Proof.Machine
end

