-- ==== Sys2Proof/Machine/BitReader.lean ====
section
/-! DEFINITION. The bit reader's commands (40_bit_reader.md R134-R138). -/

namespace Sys2Proof.Machine

/-- A command whose operand lies outside its legal range ends with ILLEGAL_COMMAND and changes nothing else (60 R272).
`decode` never gives such a command (log 11). -/
def ifLegal (legal : Prop) [Decidable legal] (body : State → Res Unit) (s : State) : Res Unit :=
  if legal then body s else .error .illegalCommand s

/-- NOP (40 R134). -/
def execNop (s : State) : Host.Outcome State Fault Refusal := runCommand (fun s => .ok () s) s

/-- The body of PEEK n (40 R135). -/
def peekBody (n : Nat) (s : State) : Res Unit :=
  match s.peek n with
  | none => .stuck
  | some v => .ok () (s.setResult v)

/-- PEEK n (40 R135). -/
def execPeek (n : Nat) (s : State) : Host.Outcome State Fault Refusal :=
  runCommand (ifLegal (n ≤ 32) (peekBody n)) s

/-- CONSUME n (40 R136). -/
def execConsume (n : Nat) (s : State) : Host.Outcome State Fault Refusal :=
  runCommand (ifLegal (n ≤ 32) (fun s => .ok () (s.consume n))) s

/-- The body of GET n (40 R137). -/
def getBody (n : Nat) (s : State) : Res Unit :=
  (s.get n).andThen fun v s => .ok () (s.setResult v)

/-- GET n (40 R137). -/
def execGet (n : Nat) (s : State) : Host.Outcome State Fault Refusal :=
  runCommand (ifLegal (n ≤ 32) (getBody n)) s

/-- ALIGN (40 R138). -/
def execAlign (s : State) : Host.Outcome State Fault Refusal := runCommand (fun s => .ok () s.align) s

end Sys2Proof.Machine
end

