-- ==== Sys2Proof/Machine/SliceHeader.lean ====
section
/-! DEFINITION. The slice header and the DC-predictor reset (44_slice_header.md R250-R253). -/

namespace Sys2Proof.Machine

/-- quant_scale of a quantiser_scale_code (30 R113). -/
def quantScale (nonLinear : Bool) (q : Nat) : Nat := if nonLinear then nlQscale.getD q 0 else q * 2

/-- Step 1 of SliceHeader (44 R250): the vertical position, with its 3-bit extension when VERT_SIZE > 2800. -/
def slicePosition (s : State) : Res Nat :=
  ((s.consume 24).get 8).andThen fun xx s =>
    if 2800 < s.vertSize.toNat then (s.get 3).andThen fun ext s => .ok (xx + ext * 2 ^ 7) s
    else .ok xx s

/-- Step 5 of SliceHeader (44 R250): `while Get(1) == 1: Consume(8)`. `fuel` bounds the turns whose continuation bit is 1;
at 0 the cursor has reached MAX, where the bit reads 0 (44 R257; log 19). -/
def extraLoop : (fuel : Nat) → State → Res Unit
  | 0, s => (s.get 1).andThen fun _ s => .ok () s
  | fuel + 1, s => (s.get 1).andThen fun b s => if b = 1 then extraLoop fuel (s.consume 8) else .ok () s

/-- Step 5 with the bound of 70 R314. -/
def extraInformation (s : State) : Res Unit := extraLoop (s.maxBit / 9 + 1) s

/-- SliceHeader() (44 R250). -/
def sliceHeader (s : State) : Res Unit :=
  (slicePosition s).andThen fun pos s =>
    let s := s.setResult pos
    if 0 < pos ∧ pos ≤ s.mbRows.toNat then
      ((s.enterRow (pos - 1)).get 5).andThen fun q s =>
        (extraInformation (s.setQscale (quantScale s.cfg.qScaleType q))).andThen fun _ s => .ok () s.dcReset
    else .error .invalidVertSize s

/-- SLICE_HDR (44 R252). -/
def execSliceHdr (s : State) : Host.Outcome State Fault Refusal := runCommand sliceHeader s

/-- DC_RESET (44 R253). -/
def execDcReset (s : State) : Host.Outcome State Fault Refusal := runCommand (fun s => .ok () s.dcReset) s

end Sys2Proof.Machine
end

