-- ==== Sys2Proof/Machine/StartCode.lean ====
section
/-! DEFINITION. The start-code scanner (41_start_code.md R150-R153). -/

namespace Sys2Proof.Machine

/-- What one turn of a scan's loop finds at the cursor: a code, nothing, or a rejected read. -/
inductive Probe where
  | code (c : Nat)
  | nothing
  | stuck
  deriving DecidableEq, Repr

/-- ScanAny's test at the cursor (41 R150): the 24-bit start-code marker 0x000001 lies before MAX; the code is the 32 bits
from there. -/
def probeAny (s : State) : Probe :=
  if s.off + 24 ≤ s.maxBit then
    match s.peek 24 with
    | none => .stuck
    | some v =>
      if v = 0x000001 then
        match s.peek 32 with
        | none => .stuck
        | some c => .code c
      else .nothing
  else .nothing

/-- ScanCode's test at the cursor (41 R151): all 32 bits of 0x000001xx lie before MAX. -/
def probeCode (xx : Byte) (s : State) : Probe :=
  if s.off + 32 ≤ s.maxBit then
    match s.peek 32 with
    | none => .stuck
    | some v => if v = 0x00000100 + xx.toNat then .code v else .nothing
  else .nothing

/-- The loop of both scans (41 R150, R151), from an aligned cursor. `fuel` counts the bytes left at most, so at 0 the
cursor has reached MAX (41 R154; log 19). -/
def scanLoop (probe : State → Probe) : (fuel : Nat) → State → Res Unit
  | 0, s => .ok () (s.setScan false 0)
  | fuel + 1, s =>
    if s.maxBit ≤ s.off then .ok () (s.setScan false 0)
    else
      match probe s with
      | .code c => .ok () (s.setScan true c)
      | .stuck => .stuck
      | .nothing => scanLoop probe fuel (s.consume 8)

/-- A scan (41 R150, R151): byte-align, then step byte by byte, from 0 when the alignment wraps (DEDUCED; log 27). -/
def scan (probe : State → Probe) (s : State) : Res Unit := scanLoop probe s.bsLen.toNat s.align

/-- SCAN_ANY (41 R152). -/
def execScanAny (s : State) : Host.Outcome State Fault Refusal := runCommand (scan probeAny) s

/-- SCAN_CODE xx (41 R153). -/
def execScanCode (xx : Byte) (s : State) : Host.Outcome State Fault Refusal := runCommand (scan (probeCode xx)) s

end Sys2Proof.Machine
end

