-- ==== Sys2Proof/Machine/InverseQuant.lean ====
section
/-! DEFINITION. The inverse quantizer and mismatch control (43_inverse_quant.md R220-R229). -/

namespace Sys2Proof.Machine

/-- The MPEG-1 odd-rounding correction and its clamp (43 R222, R223). -/
def oddRounded (t : Nat) : Int := max ((t : Int) - (((t ||| 1) : Nat) - t)) 0

/-- IQ (43 R222) as a function of its inputs: the mode, the block type, the weight, QSCALE and the level. -/
def inverseQuantize (mpeg2 intra : Bool) (weight qscale : Nat) (level : Int) : Int :=
  let k := if intra then pIntraK else 1
  let t := ((2 * level.natAbs + k) * weight * qscale) / 32
  let m : Int := if mpeg2 then t else oddRounded t
  clipS12 (if level < 0 then -m else m)

/-- IQ(level, p, intra) (43 R222): the weight is entry p, a raster position, of the matrix of the block type (43 R221). -/
def State.iq (s : State) (level : Int) (p : Nat) (intra : Bool) : Int :=
  inverseQuantize s.cfg.mpeg2 intra ((s.matrix (if intra then .intra else .inter)).getD p 0).toNat s.qscale.toNat level

/-- Position 63 is held by the last entry of LIST (43 R228, R229). -/
def State.lastIs63 (s : State) : Bool := decide (0 < s.blkCount.toNat) && decide ((s.entry s.lastIndex).pos = 63)

/-- Mismatch() (43 R228), given the parity of the block. -/
def State.mismatch (s : State) (par : Bool) : State :=
  if par then s else if s.lastIs63 then s.toggleLast else s.append 63 1

end Sys2Proof.Machine
end

