-- ==== Sys2Proof/Machine/Vld.lean ====
section
/-! DEFINITION. The VLD coefficient decoder (42_vld.md R170-R191). -/

namespace Sys2Proof.Machine

/-! ## The intra DC coefficient -/

/-- DC_LUMA for Y, DC_CHROMA for Cb and Cr (42 R171). -/
def dcTable : Component → List (VlcRow Nat)
  | .y => dcLuma
  | .cb => dcChroma
  | .cr => dcChroma

/-- The differential of a size and its raw bits (30 R102). -/
def dcDifferential (size bits : Nat) : Int :=
  if bits / 2 ^ (size - 1) = 0 then (bits : Int) - (2 ^ size - 1) else bits

/-- DcDiff(cc) (42 R171). Both tables are complete, so the case of no codeword never arises (log 20). -/
def dcDiff (cc : Component) (s : State) : Res Int :=
  (s.vlc (dcTable cc)).andThen fun size s =>
    match size with
    | none => .error .vlcInvalid s
    | some 0 => .ok 0 s
    | some size => (s.get size).andThen fun bits s => .ok (dcDifferential size bits) s

/-- The intra DC coefficient of a predictor (42 R172). -/
def dcCoefficient (pred : BitVec 16) (precision : BitVec 2) : Int := clipS12 (pred.toInt * 2 ^ (3 - precision.toNat))

/-- IntraDC(cc) (42 R172): the predictor wraps at 16 bits and keeps the value before shift and clip. -/
def intraDc (cc : Component) (s : State) : Res Int :=
  (dcDiff cc s).andThen fun diff s =>
    let pred := s.dcPred cc + BitVec.ofInt 16 diff
    .ok (dcCoefficient pred s.cfg.intraDcPrecision) (s.setDcPred cc pred)

/-! ## AC symbols -/

/-- What AcSymbol returns (42 R173). -/
inductive Symbol where
  | invalid
  | eob
  | coeff (run : Nat) (level : Int)
  deriving DecidableEq, Repr

/-- Escape2(), the MPEG-2 escape tail (42 R174). -/
def escape2 (s : State) : Res Symbol :=
  (s.get 6).andThen fun run s => (s.get 12).andThen fun level s => .ok (.coeff run (signExtend 12 level)) s

/-- Escape1(), the MPEG-1 escape tail (42 R175). -/
def escape1 (s : State) : Res Symbol :=
  (s.get 6).andThen fun run s =>
    (s.get 8).andThen fun b1 s =>
      if b1 % 128 = 0 then (s.get 8).andThen fun b2 s => .ok (.coeff run ((b2 : Int) - b1 * 2)) s
      else .ok (.coeff run (signExtend 8 b1)) s

/-- Escape() (42 R176). -/
def escape (s : State) : Res Symbol := if s.cfg.mpeg2 then escape2 s else escape1 s

/-- AcSymbol(T) (42 R173). -/
def acSymbol (table : AcTable) (s : State) : Res Symbol :=
  (s.vlc table).andThen fun sym s =>
    match sym with
    | none => .ok .invalid s
    | some .eob => .ok .eob s
    | some .esc => escape s
    | some (.runLevel run a) =>
      (s.get 1).andThen fun sign s => .ok (.coeff run (if sign = 1 then -(a : Int) else a)) s

/-! ## Placing coefficients -/

/-- The scan table in use (42 R180). -/
def State.scanTable (s : State) : List Nat := if s.cfg.alternateScan then altScan else zigzag

/-- The scan index and the parity accumulator of the DEC command in progress (10 R38). -/
structure Progress where
  n : Nat
  par : Bool
  deriving DecidableEq, Repr

/-- Append(p, v) with its effect on the parity accumulator (42 R181); the scan index becomes `n`. -/
def appendAt (n p : Nat) (v : Int) (g : Progress) (s : State) : Res Progress :=
  .ok ⟨n, g.par ^^ lowBit v⟩ (s.append p v)

/-- Place(run, level, intra) (42 R181). -/
def place (intra : Bool) (run : Nat) (level : Int) (g : Progress) (s : State) : Res Progress :=
  let n := g.n + run
  if 63 < n then .error .mbTexDecodeErr s
  else
    let p := s.scanTable.getD n 0
    appendAt (n + 1) p (s.iq level p intra) g s

/-- FirstNonIntra() (42 R179). -/
def firstNonIntra (g : Progress) (s : State) : Res Progress :=
  match s.peek 1 with
  | none => .stuck
  | some b =>
    if b = 1 then ((s.consume 1).get 1).andThen fun sign s => place false 0 (if sign = 1 then -1 else 1) g s
    else .ok g s

/-- The loop of both DEC commands (42 R190, R191), up to EOB. Each turn raises the scan index, so `fuel` = 65 turns are
enough (42 R192; log 19). -/
def acLoop (table : AcTable) (intra : Bool) : (fuel : Nat) → Progress → State → Res Progress
  | 0, _, s => .error .mbTexDecodeErr s
  | fuel + 1, g, s =>
    (acSymbol table s).andThen fun sym s =>
      match sym with
      | .invalid => .error .vlcInvalid s
      | .eob => .ok g s
      | .coeff run level => (place intra run level g s).andThen (acLoop table intra fuel)

/-- The most symbols one DEC command reads (42 R192). -/
def maxSymbols : Nat := 65

/-- The end of a DEC command after EOB (42 R182): mismatch control in MPEG-2 mode. -/
def finishBlock (g : Progress) (s : State) : Res Unit := .ok () (if s.cfg.mpeg2 then s.mismatch g.par else s)

/-! ## The commands -/

/-- The AC table of an intra block (42 R177); none when it is AC_TABLE_ONE and that is not supplied (42 R178). -/
def State.intraTable (s : State) : Option AcTable :=
  if s.cfg.mpeg2 && s.cfg.intraVlcFormat then s.acTableOne else some acTableZero

/-- The body of DEC_INTRA cc with its AC table (42 R190). -/
def decIntra (table : AcTable) (cc : Component) (s : State) : Res Unit :=
  (intraDc cc s.clearOutput).andThen fun dc s =>
    (appendAt 1 0 dc ⟨0, false⟩ s).andThen fun g s =>
      (acLoop table true maxSymbols g s).andThen finishBlock

/-- The body of DEC_NONINTRA (42 R191). -/
def decNonintra (s : State) : Res Unit :=
  (firstNonIntra ⟨0, false⟩ s.clearOutput).andThen fun g s =>
    (acLoop acTableZero false maxSymbols g s).andThen finishBlock

/-- DEC_INTRA cc (42 R190): a model fault when the AC table it selects is not supplied (42 R178). -/
def execDecIntra (cc : Component) (s : State) : Host.Outcome State Fault Refusal :=
  match s.intraTable with
  | none => .fault .acTableOneMissing
  | some table => runCommand (decIntra table cc) s

/-- DEC_NONINTRA (42 R191). -/
def execDecNonintra (s : State) : Host.Outcome State Fault Refusal := runCommand decNonintra s

end Sys2Proof.Machine
end

