-- ==== Sys2Proof/Machine/WeightMatrix.lean ====
section
/-! DEFINITION. The matrix commands (43_inverse_quant.md R231-R234). -/

namespace Sys2Proof.Machine

/-- QmDefault(sel) (43 R231). -/
def qmDefaults (intra inter : Bool) (s : State) : State :=
  { s with
    qmIntra := if intra then defaultIntra else s.qmIntra
    qmInter := if inter then defaultInter else s.qmInter }

/-- QM_DEFAULT sel (43 R233). -/
def execQmDefault (intra inter : Bool) (s : State) : Host.Outcome State Fault Refusal :=
  runCommand (ifLegal ((intra || inter) = true) (fun s => .ok () (qmDefaults intra inter s))) s

/-- The loop of QmLoad (43 R232): one byte for each of the positions, in the order given. -/
def loadWeights (m : WeightSel) : List Nat → State → Res Unit
  | [], s => .ok () s
  | p :: ps, s => (s.get 8).andThen fun b s => loadWeights m ps (s.setWeight m p (BitVec.ofNat 8 b))

/-- QM_LOAD sel (43 R234): the 64 bytes come in zig-zag order, whatever CFG.ALTERNATE_SCAN holds (30 R114). -/
def execQmLoad (m : WeightSel) (s : State) : Host.Outcome State Fault Refusal := runCommand (loadWeights m zigzag) s

end Sys2Proof.Machine
end

