-- ==== Sys2Proof/Machine/Dispatch.lean ====
section
/-! DEFINITION. The dispatch of a command to its meaning, one arm per constructor of Instr. -/

namespace Sys2Proof.Machine

def exec (i : Instr) (s : State) : Host.Outcome State Fault Refusal :=
  match i with
  | .nop => Sys2Proof.Machine.execNop s
  | .peek n => Sys2Proof.Machine.execPeek n s
  | .consume n => Sys2Proof.Machine.execConsume n s
  | .get n => Sys2Proof.Machine.execGet n s
  | .align => Sys2Proof.Machine.execAlign s
  | .scanAny => Sys2Proof.Machine.execScanAny s
  | .scanCode xx => Sys2Proof.Machine.execScanCode xx s
  | .sliceHdr => Sys2Proof.Machine.execSliceHdr s
  | .dcReset => Sys2Proof.Machine.execDcReset s
  | .decIntra cc => Sys2Proof.Machine.execDecIntra cc s
  | .decNonintra => Sys2Proof.Machine.execDecNonintra s
  | .qmDefault intra inter => Sys2Proof.Machine.execQmDefault intra inter s
  | .qmLoad m => Sys2Proof.Machine.execQmLoad m s

end Sys2Proof.Machine
end

