-- ==== Sys2Proof/Machine/HostAccess.lean ====
section
/-! DEFINITION. The host's side: the register map (10_state.md R20-R37), what a register read returns and what a register
write does, idle and busy (70_reset_and_hazards.md R311, R315, R316), stores to host memory (20_memory.md R68, R69) and
the host's polls. -/

namespace Sys2Proof.Machine

/-! ## The register map -/

/-- The registers of the map (10 R20). LIST is by entry, a matrix by word. -/
inductive Reg where
  | id
  | ctrl
  | status
  | cmd
  | result
  | bsBase
  | bsLen
  | bsOffset
  | bsMax
  | cfg
  | vertSize
  | mbRows
  | qscale
  | mbPos
  | dcPred (c : Component)
  | blkCount
  | blkMask
  | list (i : Nat)
  | matrix (m : WeightSel) (j : Nat)
  deriving DecidableEq, Repr

/-- The register at word `k` of the register space, byte offset 4k (10 R20); none at a reserved offset. -/
def regAtWord (k : Nat) : Option Reg :=
  if k = 0x000 / 4 then some .id
  else if k = 0x004 / 4 then some .ctrl
  else if k = 0x008 / 4 then some .status
  else if k = 0x00C / 4 then some .cmd
  else if k = 0x010 / 4 then some .result
  else if k = 0x014 / 4 then some .bsBase
  else if k = 0x018 / 4 then some .bsLen
  else if k = 0x01C / 4 then some .bsOffset
  else if k = 0x020 / 4 then some .bsMax
  else if k = 0x024 / 4 then some .cfg
  else if k = 0x028 / 4 then some .vertSize
  else if k = 0x02C / 4 then some .mbRows
  else if k = 0x030 / 4 then some .qscale
  else if k = 0x034 / 4 then some .mbPos
  else if k = 0x038 / 4 then some (.dcPred .y)
  else if k = 0x03C / 4 then some (.dcPred .cb)
  else if k = 0x040 / 4 then some (.dcPred .cr)
  else if k = 0x044 / 4 then some .blkCount
  else if k = 0x048 / 4 then some .blkMask
  else if k < 0x100 / 4 then none
  else if k < 0x200 / 4 then some (.list (k - 0x100 / 4))
  else if k < 0x240 / 4 then some (.matrix .intra (k - 0x200 / 4))
  else if k < 0x280 / 4 then some (.matrix .inter (k - 0x240 / 4))
  else none

/-- The register an aligned offset names (10 R20). -/
def regAt (offset : BitVec 10) : Option Reg := regAtWord (offset.toNat / 4)

/-- The bus address of a register (20 R66): the base REG_BASE, 1 KiB aligned, plus the offset (log 14). -/
def regAddress (offset : BitVec 10) : Word := Config.regBase ++ offset

/-- The constant of ID (10 R22): "MB", interface 1.0. -/
def idConstant : Word := 0x4D420100

/-! ## Reading a register -/

/-- CFG as a word (10 R27). -/
def Cfg.toWord (c : Cfg) : Word :=
  BitVec.ofNat 32 (c.mpeg2.toNat + c.qScaleType.toNat * 2 ^ 1 + c.intraVlcFormat.toNat * 2 ^ 2 +
    c.alternateScan.toNat * 2 ^ 3 + c.intraDcPrecision.toNat * 2 ^ 4)

/-- CFG from a word; the reserved bits are ignored (10 R27, R21). -/
def Cfg.ofWord (v : Word) : Cfg where
  mpeg2 := v.getLsbD 0
  qScaleType := v.getLsbD 1
  intraVlcFormat := v.getLsbD 2
  alternateScan := v.getLsbD 3
  intraDcPrecision := v.extractLsb' 4 2

/-- A LIST entry as a word (10 R34): VALUE in bits 15:0, POS in bits 21:16. -/
def Entry.toWord (e : Entry) : Word := BitVec.ofNat 32 (e.value.toNat + e.pos.toNat * 2 ^ 16)

/-- Word j of a matrix (10 R35): entry 4j+b in bits [8b+7:8b]. -/
def matrixWord (q : Vector Byte 64) (j : Nat) : Word :=
  BitVec.ofNat 32 ((q.getD (4 * j) 0).toNat + (q.getD (4 * j + 1) 0).toNat * 2 ^ 8 + (q.getD (4 * j + 2) 0).toNat * 2 ^ 16 +
    (q.getD (4 * j + 3) 0).toNat * 2 ^ 24)

/-- A matrix with word j written (10 R35). -/
def setMatrixWord (q : Vector Byte 64) (j : Nat) (v : Word) : Vector Byte 64 :=
  (((q.setIfInBounds (4 * j) (v.extractLsb' 0 8)).setIfInBounds (4 * j + 1) (v.extractLsb' 8 8)).setIfInBounds (4 * j + 2)
    (v.extractLsb' 16 8)).setIfInBounds (4 * j + 3) (v.extractLsb' 24 8)

/-- The value a register holds (10 R20-R37): a write-only register reads 0 and reserved bits read 0 (10 R21). -/
def State.regValue (s : State) : Reg → Word
  | .id => idConstant
  | .ctrl => 0
  | .status => s.statusWord
  | .cmd => 0
  | .result => s.result
  | .bsBase => s.bsBase
  | .bsLen => s.bsLen.zeroExtend 32
  | .bsOffset => s.bsOffset
  | .bsMax => BitVec.ofNat 32 s.maxBit
  | .cfg => s.cfg.toWord
  | .vertSize => s.vertSize.zeroExtend 32
  | .mbRows => s.mbRows.zeroExtend 32
  | .qscale => s.qscale.zeroExtend 32
  | .mbPos => BitVec.ofNat 32 (s.mbX.toNat + s.mbY.toNat * 2 ^ 16)
  | .dcPred c => (s.dcPred c).zeroExtend 32
  | .blkCount => s.blkCount.zeroExtend 32
  | .blkMask => BitVec.ofNat 32 (s.rowMask.toNat + s.colMask.toNat * 2 ^ 8)
  | .list i => (s.entry i).toWord
  | .matrix m j => matrixWord (s.matrix m) j

/-- Which registers and flags a command's rule may write (70 R316), besides ERRCODE, which every command writes. -/
structure Writes where
  result : Bool := false
  cursor : Bool := false
  found : Bool := false
  slice : Bool := false
  dcY : Bool := false
  dcCb : Bool := false
  dcCr : Bool := false
  block : Bool := false
  qmIntra : Bool := false
  qmInter : Bool := false
  deriving DecidableEq, Repr

/-- The "Status written" line of each command's rule (40 R134-R138, 41 R152-R153, 42 R190-R191, 43 R233-R234,
44 R252-R253). The cursor and OVERRUN go together (40 R131). -/
def writesOf : Instr → Writes
  | .nop => {}
  | .peek _ => { result := true }
  | .consume _ => { cursor := true }
  | .get _ => { result := true, cursor := true }
  | .align => { cursor := true }
  | .scanAny => { result := true, cursor := true, found := true }
  | .scanCode _ => { result := true, cursor := true, found := true }
  | .sliceHdr => { result := true, cursor := true, slice := true, dcY := true, dcCb := true, dcCr := true }
  | .dcReset => { dcY := true, dcCb := true, dcCr := true }
  | .decIntra cc => { cursor := true, block := true, dcY := cc == .y, dcCb := cc == .cb, dcCr := cc == .cr }
  | .decNonintra => { cursor := true, block := true }
  | .qmDefault intra inter => { qmIntra := intra, qmInter := inter }
  | .qmLoad m => { cursor := true, qmIntra := m == .intra, qmInter := m == .inter }

/-- `mask` when the flag holds, no bit otherwise. -/
def maskIf (flag : Bool) (mask : Word) : Word := if flag then mask else 0

/-- The bits of a register that a command with these writes may write (70 R316); reserved bits are never among them. -/
def Writes.mask (w : Writes) : Reg → Word
  | .id => 0
  | .ctrl => 0
  | .status => 0x0000FF00 ||| (maskIf w.found 0x4 ||| maskIf w.cursor 0x8)
  | .cmd => 0
  | .result => maskIf w.result 0xFFFFFFFF
  | .bsBase => 0
  | .bsLen => 0
  | .bsOffset => maskIf w.cursor 0xFFFFFFFF
  | .bsMax => 0
  | .cfg => 0
  | .vertSize => 0
  | .mbRows => 0
  | .qscale => maskIf w.slice 0x0000007F
  | .mbPos => maskIf w.slice 0xFFFFFFFF
  | .dcPred .y => maskIf w.dcY 0x0000FFFF
  | .dcPred .cb => maskIf w.dcCb 0x0000FFFF
  | .dcPred .cr => maskIf w.dcCr 0x0000FFFF
  | .blkCount => maskIf w.block 0x0000007F
  | .blkMask => maskIf w.block 0x0000FFFF
  | .list _ => maskIf w.block 0x003FFFFF
  | .matrix .intra _ => maskIf w.qmIntra 0xFFFFFFFF
  | .matrix .inter _ => maskIf w.qmInter 0xFFFFFFFF

/-- What a command word may write; an illegal word writes only ERRCODE (60 R272). -/
def writesOfWord (w : Word) : Writes :=
  match decode w with
  | .ok i => writesOf i
  | .error _ => {}

/-- The bits of a register that read any value now (70 R316): those the command in progress may write. -/
def State.freeBits (s : State) (r : Reg) : Word :=
  match s.command with
  | none => 0
  | some w => (writesOfWord w).mask r

/-- What a read of register `r` returns (10 R21, 70 R316): its value, with the free bits drawn (log 5). -/
def State.readReg (s : State) (r : Reg) : Word :=
  if s.freeBits r = 0 then s.regValue r
  else (s.regValue r &&& ~~~(s.freeBits r)) ||| (Config.freeRead s.draws &&& s.freeBits r)

/-- What an aligned 32-bit read at an offset returns; a reserved offset reads 0 (10 R20). -/
def State.readOffset (s : State) (offset : BitVec 10) : Word :=
  match regAt offset with
  | none => 0
  | some r => s.readReg r

/-- A read: the word goes to the host, and no register changes (20 R67). -/
def State.hostRead (s : State) (offset : BitVec 10) : State :=
  { s with reads := s.readOffset offset :: s.reads, draws := s.draws + 1 }

/-! ## Writing a register -/

/-- A write of STATUS (10 R24): clears the W1C flags whose bits are 1. Accepted while BUSY = 1. -/
def State.writeStatus (s : State) (v : Word) : State :=
  { s with
    done := clearedByOne s.done 1 v
    overrun := clearedByOne s.overrun 3 v
    cmdErr := clearedByOne s.cmdErr 4 v }

/-- A write of CTRL (10 R23): SOFT_RESET, at once, busy or not. -/
def State.writeCtrl (s : State) (v : Word) : State := if v.getLsbD 0 then s.doReset else s

/-- A write of CMD while BUSY = 0 (10 R36, 70 R311): BUSY <- 1, and no flag is cleared. -/
def State.startCommand (s : State) (v : Word) : State := { s with command := some v }

/-- A write that a running command makes the block drop (70 R315): it sets CMDERR. -/
def State.dropWrite (s : State) : State := { s with cmdErr := true }

/-- A write of a register while BUSY = 0 (10 R20-R37). Read-only registers ignore it (10 R21). -/
def State.writeIdle (s : State) (r : Reg) (v : Word) : State :=
  match r with
  | .id => s
  | .ctrl => s.writeCtrl v
  | .status => s.writeStatus v
  | .cmd => s.startCommand v
  | .result => s
  | .bsBase => { s with bsBase := v }
  | .bsLen => { s with bsLen := v.extractLsb' 0 28 }
  | .bsOffset => { s with bsOffset := v }
  | .bsMax => s
  | .cfg => { s with cfg := Cfg.ofWord v }
  | .vertSize => { s with vertSize := v.extractLsb' 0 14 }
  | .mbRows => { s with mbRows := v.extractLsb' 0 11 }
  | .qscale => { s with qscale := v.extractLsb' 0 7 }
  | .mbPos => { s with mbX := v.extractLsb' 0 16, mbY := v.extractLsb' 16 16 }
  | .dcPred c => s.setDcPred c (v.extractLsb' 0 16)
  | .blkCount => s
  | .blkMask => s
  | .list _ => s
  | .matrix m j => s.setMatrix m (setMatrixWord (s.matrix m) j v)

/-- A write of a register while BUSY = 1 (70 R315): CTRL and STATUS are applied, a write of CMD or of an RW register is
dropped and sets CMDERR, and a read-only register ignores it. -/
def State.writeBusy (s : State) (r : Reg) (v : Word) : State :=
  match r with
  | .id => s
  | .ctrl => s.writeCtrl v
  | .status => s.writeStatus v
  | .cmd => s.dropWrite
  | .result => s
  | .bsBase => s.dropWrite
  | .bsLen => s.dropWrite
  | .bsOffset => s.dropWrite
  | .bsMax => s
  | .cfg => s.dropWrite
  | .vertSize => s.dropWrite
  | .mbRows => s.dropWrite
  | .qscale => s.dropWrite
  | .mbPos => s.dropWrite
  | .dcPred _ => s.dropWrite
  | .blkCount => s
  | .blkMask => s
  | .list _ => s
  | .matrix _ _ => s.dropWrite

/-- A write of a register. -/
def State.writeReg (s : State) (r : Reg) (v : Word) : State := if s.busy then s.writeBusy r v else s.writeIdle r v

/-- An aligned 32-bit write at an offset; a reserved offset ignores it (10 R20). -/
def State.hostWrite (s : State) (offset : BitVec 10) (v : Word) : State :=
  match regAt offset with
  | none => s
  | some r => s.writeReg r v

/-! ## Host memory -/

/-- A store of a byte to host memory. While a command runs, what the address held stays a value that the command's reads
may return (20 R69; log 6). -/
def State.hostStore (s : State) (addr : Word) (b : Byte) : State :=
  { s with
    mem := Memory.write s.mem addr.toNat b
    earlier := if s.busy then (addr.toNat, Memory.read s.mem addr.toNat) :: s.earlier else s.earlier }

/-! ## One event -/

/-- Only an aligned 32-bit access of the register space is defined (20 R67). -/
def accessDefined (offset : BitVec 10) (width : AccessWidth) : Bool :=
  decide (width = .word) && decide (offset.toNat % 4 = 0)

/-- A register access that the spec defines has its effect; any other is refused (20 R67, 93 S3; log 12). -/
def ifDefined (offset : BitVec 10) (width : AccessWidth) (t : State) : Host.Outcome State Fault Refusal :=
  if accessDefined offset width then .next t else .refused .undefinedRegisterAccess

/-- A poll: over once its flag is seen, otherwise the block has its turn and the host polls again (30 R85; log 22). -/
def poll (seen : Bool) (again : HostEvent) (s : State) : State :=
  if seen then s else { s with turn := .block, agenda := again :: s.agenda }

/-- One event of the host or the platform; `s` no longer holds it in its agenda. -/
def hostMove (e : HostEvent) (s : State) : Host.Outcome State Fault Refusal :=
  match e with
  | .write offset width v => ifDefined offset width (s.hostWrite offset v)
  | .read offset width => ifDefined offset width (s.hostRead offset)
  | .store addr b => .next (s.hostStore addr b)
  | .waitIdle => .next (poll (!s.busy) .waitIdle s)
  | .waitDone => .next (poll s.done .waitDone s)
  | .yield => .next { s with turn := .block }
  | .reset => .next s.doReset

end Sys2Proof.Machine
end

