-- ==== Sys2Proof/Machine/Turn.lean ====
section
/-! DEFINITION. The block's turn: the command in progress is decoded and run to its completion as one atomic step
(70_reset_and_hazards.md R312), an illegal word completes with ILLEGAL_COMMAND (60_exceptions.md R272), and a command that
met a rejected read never completes (20_memory.md R73). Also the next event of the agenda, and how a command word is put
where the block takes its next command from. -/

namespace Sys2Proof.Machine

/-- The block has nothing to do: the host moves next. -/
def State.pass (s : State) : State := { s with turn := .host }

/-- A command word, run (30 R81, R82). -/
def runWord (w : Word) (s : State) : Host.Outcome State Fault Refusal :=
  match decode w with
  | .ok i => exec i s
  | .error _ => .next (s.complete .illegalCommand)

/-- The block's turn (70 R312). -/
def blockMove (s : State) : Host.Outcome State Fault Refusal :=
  match s.command with
  | none => .next s.pass
  | some w => if s.stuck then .next s.pass else runWord w s

/-- The next move: the block's when it is its turn or when no event is pending, otherwise the agenda's first event (log 1). -/
def nextMove (s : State) : Host.Outcome State Fault Refusal :=
  match s.turn with
  | .block => blockMove s
  | .host =>
    match s.agenda with
    | [] => blockMove s
    | e :: rest => hostMove e { s with agenda := rest }

/-- The command word `w` in progress and the block about to run it (log 2). -/
def State.withCommand (s : State) (w : Word) : State := { s with command := some w, stuck := false, turn := .block }

end Sys2Proof.Machine
end

