-- ==== Sys2Proof/Machine/Step.lean ====
section
/-! DEFINITION. One step of the machine, and the placing of a command word where the next step takes it from. -/

namespace Sys2Proof.Machine

/-- One step: one event of the host or the platform, or one turn of the block (00_scope.md R14). -/
def step (s : State) : Host.Outcome State Fault Refusal := nextMove s

/-- The command of `nbits` bits `w` as the command in progress, which the next step runs (log 2). A command is one 32-bit
word (30_encoding.md R80), so the bits above `nbits` are 0. -/
def State.withFetchWord (s : State) (nbits w : Nat) : State := s.withCommand (BitVec.ofNat 32 (w % 2 ^ nbits))

end Sys2Proof.Machine
end

