-- ==== Sys2Proof/Safety.lean ====
section
/-! DEFINITION. The terms the claims are stated in: when the buffer can be read, the bits of the stream as numbers, what one
block of the stream holds and what a DEC command makes of it, and the invariant of the machine. -/

namespace Sys2Proof.Machine

/-! ## The stream -/

/-- No byte was stored to host memory while the command in progress was running (70 R317 item 2). -/
def State.quiet (s : State) : Prop := s.earlier = []

/-- Every byte of the buffer can be read (20 R62, R73), whichever of the values it held a racing read returns (20 R69). -/
def State.readable (s : State) : Prop :=
  (∀ j, j < s.bsLen.toNat → (Memory.read s.mem ((s.bsBase.toNat + j) % 2 ^ 32)).isSome = true) ∧
    ∀ c ∈ s.earlier, c.2.isSome = true

/-- Bit i of the stream (20 R63), for a buffer that can be read and does not change. -/
def State.streamBit (s : State) (i : Nat) : Bool :=
  decide (i < 8 * s.bsLen.toNat) &&
    ((Memory.read s.mem ((s.bsBase.toNat + i / 8) % 2 ^ 32)).getD 0).getLsbD (7 - i % 8)

/-- Bit i of the stream lies before MAX in a byte that the platform rejects a read of (20 R73). -/
def State.rejects (s : State) (i : Nat) : Prop :=
  i < 8 * s.bsLen.toNat ∧ Memory.read s.mem ((s.bsBase.toNat + i / 8) % 2 ^ 32) = none

/-- The number that n bits from index i are, the first bit most significant (20 R64). -/
def bitsValue (f : Nat → Bool) (i : Nat) : Nat → Nat
  | 0 => 0
  | n + 1 => 2 * bitsValue f i n + (f (i + n)).toNat

/-- The number that the n bits at the cursor are. -/
def State.streamNat (s : State) (n : Nat) : Nat := bitsValue s.streamBit s.bsOffset.toNat n

/-- The state with its cursor at an index. -/
def State.seek (s : State) (i : Nat) : State := { s with bsOffset := BitVec.ofNat 32 i }

/-- The state with the cursor and the OVERRUN flag of another. -/
def State.withCursorOf (s u : State) : State := { s with bsOffset := u.bsOffset, overrun := u.overrun }

/-! ## One block of the stream -/

/-- How the AC symbols of a block end (42 R190): at EOB, at a string that is no codeword, or at a coefficient whose scan
index would pass 63. -/
inductive BlockEnd where
  | eob
  | invalid
  | overflow
  deriving DecidableEq, Repr

/-- The stream at the cursor of `s` holds the coefficients (run, level) given, the first at scan index n + run, and then
ends as given, with the cursor as in `t` (42 R173, R181-R183). -/
def Parses (table : AcTable) : Nat → State → List (Nat × Int) → BlockEnd → State → Prop
  | _, s, [], .eob, t => acSymbol table s = .ok .eob t
  | _, s, [], .invalid, t => acSymbol table s = .ok .invalid t
  | n, s, [], .overflow, t => ∃ run level, acSymbol table s = .ok (.coeff run level) t ∧ 63 < n + run
  | n, s, (run, level) :: rest, e, t =>
    ∃ u, acSymbol table s = .ok (.coeff run level) u ∧ n + run ≤ 63 ∧ Parses table (n + run + 1) u rest e t

/-- The raster position, in the scan that CFG.ALTERNATE_SCAN selects (42 R180), and the dequantized value of each coefficient
of a block, from scan index n on (42 R181, 43 R222). -/
def placements (s : State) (intra : Bool) : Nat → List (Nat × Int) → List (Nat × Int)
  | _, [] => []
  | n, (run, level) :: rest =>
    let p := (if s.cfg.alternateScan then altScan else zigzag).getD (n + run) 0
    (p, s.iq level p intra) :: placements s intra (n + run + 1) rest

/-- The entries appended to the block output, one after the other. -/
def State.appendAll (s : State) : List (Nat × Int) → State
  | [] => s
  | (p, v) :: rest => (s.append p v).appendAll rest

/-- The parity of the sum of the values of entries (43 R227). -/
def parity (entries : List (Nat × Int)) : Bool := decide ((entries.map (·.2)).sum % 2 = 1)

/-- The block output cleared, the entries of LIST left (42 R190, R191). -/
def State.emptyBlock (s : State) : State := { s with blkCount := 0, rowMask := 0, colMask := 0 }

/-- The state a DEC command leaves (42 R190-R193): `u` is the state after the DC predictor's update with the cursor where
the block's last read left it, `entries` the coefficients placed. -/
def blockResult (u : State) (entries : List (Nat × Int)) : BlockEnd → State
  | .eob =>
    let t := u.emptyBlock.appendAll entries
    (if u.cfg.mpeg2 then t.mismatch (parity entries) else t).complete .ok
  | .invalid => (u.emptyBlock.appendAll entries).complete .vlcInvalid
  | .overflow => (u.emptyBlock.appendAll entries).complete .mbTexDecodeErr

/-! ## The invariant -/

/-- The first `blkCount` entries of LIST agree with the masks (10 R33), and their values are 12-bit (10 R34). -/
def State.blockInv (s : State) : Prop :=
  s.blkCount.toNat ≤ 64 ∧
  (∀ i, i < s.blkCount.toNat → -2048 ≤ (s.entry i).value.toInt ∧ (s.entry i).value.toInt ≤ 2047) ∧
  (∀ v, v < 8 → (s.rowMask.getLsbD v = true ↔ ∃ i, i < s.blkCount.toNat ∧ (s.entry i).pos.toNat / 8 = v)) ∧
  ∀ u, u < 8 → (s.colMask.getLsbD u = true ↔ ∃ i, i < s.blkCount.toNat ∧ (s.entry i).pos.toNat % 8 = u)

/-- What every step keeps: host memory has its canonical form, the block output is consistent, and an idle block is not
stuck and has no race. -/
def State.Inv (s : State) : Prop :=
  Memory.wf s.mem = true ∧ s.blockInv ∧ (s.command = none → s.stuck = false ∧ s.earlier = [])

end Sys2Proof.Machine
end

