-- ==== Sys2Proof/Certificates/Slice0/Obligations.lean ====
section
/-! DEFINITION. The statements about the block, from the numbered rules of spec/. -/

open Sys2Proof Sys2Proof.Machine

/-! ## Reset, completion and the step -/

/-- 10 R39: the value of every register after reset, and no command in progress. -/
def Obligations.ResetGivesEveryRegisterItsValue : Prop :=
  State.reset.regValue .id = 0x4D420100 ∧ State.reset.regValue .status = 0 ∧ State.reset.regValue .result = 0 ∧
  State.reset.regValue .bsBase = 0 ∧ State.reset.regValue .bsLen = 0 ∧ State.reset.regValue .bsOffset = 0 ∧
  State.reset.regValue .bsMax = 0 ∧ State.reset.regValue .cfg = 0 ∧ State.reset.regValue .vertSize = 0 ∧
  State.reset.regValue .mbRows = 0 ∧ State.reset.regValue .qscale = 0 ∧ State.reset.regValue .mbPos = 0 ∧
  (∀ c, State.reset.regValue (.dcPred c) = 128) ∧ State.reset.regValue .blkCount = 0 ∧
  State.reset.regValue .blkMask = 0 ∧ (∀ i, i < 64 → State.reset.regValue (.list i) = 0) ∧
  (State.reset.matrix .intra).toList =
    [8, 16, 19, 22, 26, 27, 29, 34, 16, 16, 22, 24, 27, 29, 34, 37, 19, 22, 26, 27, 29, 34, 34, 38, 22, 22, 26, 27, 29, 34,
      37, 40, 22, 26, 27, 29, 32, 35, 40, 48, 26, 27, 29, 32, 35, 40, 48, 58, 26, 27, 29, 34, 38, 46, 56, 69, 27, 29, 35,
      38, 46, 56, 69, 83] ∧
  (State.reset.matrix .inter).toList = List.replicate 64 16 ∧ State.reset.command = none

/-- 10 R23, 70 R300: the reset input, and a write of 1 to CTRL.SOFT_RESET even while a command runs, give every register its
reset value, abandon the command and leave host memory; a write of 0 to SOFT_RESET changes nothing; CTRL reads 0. That the
host's pending accesses stay is the model's choice (log 16). -/
def Obligations.BothResetsRestoreEveryRegister : Prop :=
  (∀ (s : State) (e : HostEvent) (rest : List HostEvent), s.turn = .host → s.agenda = e :: rest →
    (e = .reset ∨ ∃ v, v.getLsbD 0 = true ∧ e = .write 0x004 .word v) →
    ∃ t, step s = .next t ∧ (∀ r, t.regValue r = State.reset.regValue r) ∧ t.command = none ∧ t.mem = s.mem ∧
      t.agenda = rest) ∧
  (∀ (s : State) (v : Word) (rest : List HostEvent), s.turn = .host → s.agenda = .write 0x004 .word v :: rest →
    v.getLsbD 0 = false → step s = .next { s with agenda := rest }) ∧
  ∀ s : State, s.readOffset 0x004 = 0

/-- 70 R310, 60 R276: a completion writes ERRCODE, clears BUSY and sets DONE, and changes no other register or flag. -/
def Obligations.CompletionWritesStatusOnly : Prop :=
  ∀ (s : State) (code : ResultCode),
    (s.complete code).errCode = code ∧ (s.complete code).busy = false ∧ (s.complete code).done = true ∧
    (∀ r, r ≠ .status → (s.complete code).regValue r = s.regValue r) ∧ (s.complete code).found = s.found ∧
    (s.complete code).overrun = s.overrun ∧ (s.complete code).cmdErr = s.cmdErr ∧ (s.complete code).mem = s.mem

/-- 70 R312: when the block moves next and a command is in progress that has met no rejected read, the step is the meaning
of the command its word decodes to. Which agent moves next is the model's convention (log 1). -/
def Obligations.StepRunsTheDecodedCommand : Prop :=
  ∀ (s : State) (w : Word) (i : Instr), (s.turn = .block ∨ s.agenda = []) → s.command = some w → s.stuck = false →
    decode w = .ok i → step s = exec i s

/-- 60 R272: an illegal word sets ERRCODE = 0x01, completes, and changes nothing else. Which agent moves next is the model's
convention (log 1). -/
def Obligations.IllegalWordOnlyCompletes : Prop :=
  ∀ (s : State) (w : Word) (r : DecodeError), (s.turn = .block ∨ s.agenda = []) → s.command = some w → s.stuck = false →
    decode w = .error r →
    ∃ t, step s = .next t ∧ t.errCode.toByte = 0x01 ∧ t.busy = false ∧ t.done = true ∧
      (∀ q, q ≠ .status → t.regValue q = s.regValue q) ∧ t.found = s.found ∧ t.overrun = s.overrun ∧
      t.cmdErr = s.cmdErr ∧ t.mem = s.mem

/-! ## Encoding -/

/-- 30 R80, R81, R84: decoding the word of a well-formed command gives the command back, with every operand. -/
def Obligations.DecodeOfEncodeIsTheCommand : Prop :=
  ∀ i : Instr, i.wellFormed = true → decode (encode i) = .ok i

/-- 30 R80, R81: a word that decodes to a command is that command's only word, and the command is well formed. -/
def Obligations.EncodeOfDecodeIsTheWord : Prop :=
  ∀ (w : Word) (i : Instr), decode w = .ok i → encode i = w ∧ i.wellFormed = true

/-- 30 R82: a word is a command exactly when Z = 0, OP is in the opcode map and A lies in the row's legal range. -/
def Obligations.LegalWordsAreTheOpcodeMap : Prop :=
  ∀ w : Word, (∃ i, decode w = .ok i) ↔
    w.toNat / 2 ^ 16 = 0 ∧
      ((w.toNat % 256 ∈ [0x00, 0x04, 0x08, 0x10, 0x11, 0x21] ∧ w.toNat / 2 ^ 8 % 256 = 0) ∨
        (w.toNat % 256 ∈ [0x01, 0x02, 0x03] ∧ w.toNat / 2 ^ 8 % 256 ≤ 32) ∨ w.toNat % 256 = 0x09 ∨
        (w.toNat % 256 = 0x20 ∧ w.toNat / 2 ^ 8 % 256 ≤ 2) ∨
        (w.toNat % 256 = 0x30 ∧ 1 ≤ w.toNat / 2 ^ 8 % 256 ∧ w.toNat / 2 ^ 8 % 256 ≤ 3) ∨
        (w.toNat % 256 = 0x31 ∧ 1 ≤ w.toNat / 2 ^ 8 % 256 ∧ w.toNat / 2 ^ 8 % 256 ≤ 2))

/-- 30 R85 and the words of 40 to 44: words written out from the encoding decode to the commands they stand for. -/
def Obligations.WordsOfTheSpecDecode : Prop :=
  decode 0x00000000 = .ok .nop ∧ decode 0x00000C01 = .ok (.peek 12) ∧ decode 0x00000802 = .ok (.consume 8) ∧
  decode 0x00002003 = .ok (.get 32) ∧ decode 0x00000004 = .ok .align ∧ decode 0x00000008 = .ok .scanAny ∧
  decode 0x0000B309 = .ok (.scanCode 0xB3) ∧ decode 0x00000010 = .ok .sliceHdr ∧ decode 0x00000011 = .ok .dcReset ∧
  decode 0x00000120 = .ok (.decIntra .cb) ∧ decode 0x00000021 = .ok .decNonintra ∧
  decode 0x00000330 = .ok (.qmDefault true true) ∧ decode 0x00000231 = .ok (.qmLoad .inter)

/-! ## Bit reader -/

/-- 40 R134: NOP only completes, with ERRCODE OK. -/
def Obligations.NopOnlyCompletes : Prop := ∀ s : State, exec .nop s = .next (s.complete .ok)

/-- 40 R130, 20 R63: Peek(n) is the next n bits of the stream as a number, the first bit most significant, with zeros at and
past MAX. -/
def Obligations.PeekIsTheNextBitsOfTheStream : Prop :=
  ∀ (s : State) (n : Nat), s.quiet → s.readable → n ≤ 32 →
    ∃ v, s.peek n = some v ∧ v < 2 ^ n ∧ ∀ k, k < n → v.testBit (n - 1 - k) = s.streamBit (s.bsOffset.toNat + k)

/-- 40 R135: PEEK n puts the next n bits in RESULT and completes OK; nothing else changes, the cursor and OVERRUN included. -/
def Obligations.PeekPutsTheNextBitsInResult : Prop :=
  ∀ (s : State) (n : Nat), s.quiet → s.readable → n ≤ 32 →
    exec (.peek n) s = .next (State.complete { s with result := BitVec.ofNat 32 (s.streamNat n) } .ok)

/-- 20 R63: at and past MAX a PEEK gives 0 and touches no memory, so it needs none. -/
def Obligations.PeekPastTheEndGivesZero : Prop :=
  ∀ (s : State) (n : Nat), n ≤ 32 → 8 * s.bsLen.toNat ≤ s.bsOffset.toNat →
    exec (.peek n) s = .next (State.complete { s with result := 0 } .ok)

/-- 40 R131, R136: Consume(n) advances the cursor by n bits modulo 2^32, sets OVERRUN when the advanced position lies past
MAX, reads no memory and changes nothing else; CONSUME n does it and completes OK. -/
def Obligations.ConsumeAdvancesTheCursor : Prop :=
  ∀ (s : State) (n : Nat),
    s.consume n =
      { s with
        bsOffset := BitVec.ofNat 32 (s.bsOffset.toNat + n)
        overrun := s.overrun || decide (8 * s.bsLen.toNat < s.bsOffset.toNat + n) } ∧
    (n ≤ 32 → exec (.consume n) s = .next ((s.consume n).complete .ok))

/-- 40 R132, R137: GET n puts the next n bits in RESULT and advances the cursor by n. -/
def Obligations.GetReturnsTheBitsAndAdvances : Prop :=
  ∀ (s : State) (n : Nat), s.quiet → s.readable → n ≤ 32 →
    exec (.get n) s = .next (State.complete
      { s with
        result := BitVec.ofNat 32 (s.streamNat n)
        bsOffset := BitVec.ofNat 32 (s.bsOffset.toNat + n)
        overrun := s.overrun || decide (8 * s.bsLen.toNat < s.bsOffset.toNat + n) } .ok)

/-- 40 R133, R138: ALIGN moves the cursor to the next byte boundary (modulo 2^32) and does nothing on one. -/
def Obligations.AlignStopsOnTheNextByteBoundary : Prop :=
  ∀ s : State, ∃ off : Word, off.toNat % 8 = 0 ∧ off.toNat = (s.bsOffset.toNat + 7) / 8 * 8 % 2 ^ 32 ∧
    exec .align s = .next (State.complete
      { s with
        bsOffset := off
        overrun := s.overrun ||
          (decide (s.bsOffset.toNat % 8 ≠ 0) && decide (8 * s.bsLen.toNat < (s.bsOffset.toNat + 7) / 8 * 8)) } .ok)

/-- 20 R73: a command that must read a byte the platform rejects does not complete; BUSY stays 1. PEEK and GET read all
their bits, QM_LOAD its 64 bytes, a scan the bits at each position it tests before a match, SLICE_HDR first the byte after the
prefix, and a DEC command first the bit under the cursor. That State keeps its registers as they were is the model's choice
(log 8). -/
def Obligations.RejectedReadHangsTheCommand : Prop :=
  ∀ s : State, s.quiet →
    (∀ n k, n ≤ 32 → k < n → s.rejects (s.bsOffset.toNat + k) →
      exec (.peek n) s = .next { s with stuck := true, turn := .host } ∧
        exec (.get n) s = .next { s with stuck := true, turn := .host }) ∧
    (∀ k, s.align.off + 8 * k + 24 ≤ s.maxBit → s.rejects (s.align.off + 8 * k) →
      (∀ j, j < k → bitsValue s.streamBit (s.align.off + 8 * j) 24 ≠ 0x000001) →
      exec .scanAny s = .next { s with stuck := true, turn := .host }) ∧
    (∀ (xx : Byte) (k : Nat), s.align.off + 8 * k + 32 ≤ s.maxBit → s.rejects (s.align.off + 8 * k) →
      (∀ j, j < k → bitsValue s.streamBit (s.align.off + 8 * j) 32 ≠ 0x00000100 + xx.toNat) →
      exec (.scanCode xx) s = .next { s with stuck := true, turn := .host }) ∧
    (s.rejects (s.consume 24).off → exec .sliceHdr s = .next { s with stuck := true, turn := .host }) ∧
    (∀ cc, ¬(s.cfg.mpeg2 = true ∧ s.cfg.intraVlcFormat = true ∧ s.acTableOne = none) → s.rejects s.off →
      exec (.decIntra cc) s = .next { s with stuck := true, turn := .host }) ∧
    (s.rejects s.off → exec .decNonintra s = .next { s with stuck := true, turn := .host }) ∧
    ∀ m i j, i < 64 → j < 8 → s.rejects ((s.consume (8 * i)).off + j) →
      exec (.qmLoad m) s = .next { s with stuck := true, turn := .host }

/-! ## Start-code scanner -/

/-- 41 R150: from the aligned cursor, SCAN_ANY stops at the first byte position where the next 24 bits are 0x000001 and lie
before MAX, with FOUND = 1 and RESULT the 32 bits there; when there is none it ends at MAX (or where Align left a cursor
already past it) with FOUND = 0 and RESULT = 0. That a scan whose alignment wraps goes on from 0
with OVERRUN set is the model's choice (log 27). -/
def Obligations.ScanAnyStopsAtTheFirstStartCode : Prop :=
  ∀ s : State, s.quiet → s.readable →
    (∀ k, s.align.off + 8 * k + 24 ≤ s.maxBit → bitsValue s.streamBit (s.align.off + 8 * k) 24 = 0x000001 →
      (∀ j, j < k → bitsValue s.streamBit (s.align.off + 8 * j) 24 ≠ 0x000001) →
      exec .scanAny s = .next (State.complete
        { s.align with
          bsOffset := BitVec.ofNat 32 (s.align.off + 8 * k)
          found := true
          result := BitVec.ofNat 32 (bitsValue s.streamBit (s.align.off + 8 * k) 32) } .ok)) ∧
    ((∀ k, s.align.off + 8 * k + 24 ≤ s.maxBit → bitsValue s.streamBit (s.align.off + 8 * k) 24 ≠ 0x000001) →
      exec .scanAny s = .next (State.complete
        { s.align with
          bsOffset := BitVec.ofNat 32 (max s.align.off s.maxBit)
          found := false
          result := 0 } .ok))

/-- 41 R151: SCAN_CODE xx stops at the first byte position where all 32 bits of 0x000001xx lie before MAX, with FOUND = 1 and
RESULT that code; when there is none it ends as SCAN_ANY does. That a scan whose alignment wraps goes on from 0 with OVERRUN
set is the model's choice (log 27). -/
def Obligations.ScanCodeStopsAtTheFirstMatch : Prop :=
  ∀ (s : State) (xx : Byte), s.quiet → s.readable →
    (∀ k, s.align.off + 8 * k + 32 ≤ s.maxBit → bitsValue s.streamBit (s.align.off + 8 * k) 32 = 0x00000100 + xx.toNat →
      (∀ j, j < k → bitsValue s.streamBit (s.align.off + 8 * j) 32 ≠ 0x00000100 + xx.toNat) →
      exec (.scanCode xx) s = .next (State.complete
        { s.align with
          bsOffset := BitVec.ofNat 32 (s.align.off + 8 * k)
          found := true
          result := BitVec.ofNat 32 (0x00000100 + xx.toNat) } .ok)) ∧
    ((∀ k, s.align.off + 8 * k + 32 ≤ s.maxBit →
        bitsValue s.streamBit (s.align.off + 8 * k) 32 ≠ 0x00000100 + xx.toNat) →
      exec (.scanCode xx) s = .next (State.complete
        { s.align with
          bsOffset := BitVec.ofNat 32 (max s.align.off s.maxBit)
          found := false
          result := 0 } .ok))

/-! ## Slice header and DC reset -/

/-- 44 R250 steps 1 and 2: when the position is 0 or above MB_ROWS, SLICE_HDR ends with INVALID_VERT_SIZE, the cursor after
the position field and its extension, RESULT the position, and nothing else changed. -/
def Obligations.SliceHdrRejectsAnInvalidPosition : Prop :=
  ∀ (s : State) (pos : Nat), s.quiet → s.readable →
    pos = (s.consume 24).streamNat 8 + (if 2800 < s.vertSize.toNat then (s.consume 32).streamNat 3 * 128 else 0) →
    (pos = 0 ∨ s.mbRows.toNat < pos) →
    exec .sliceHdr s = .next (State.complete
      { s.consume (if 2800 < s.vertSize.toNat then 35 else 32) with result := BitVec.ofNat 32 pos } .invalidVertSize)

/-- 44 R250 steps 1 to 6, 30 R113: a valid position. `w` is the state with the cursor after the quantiser_scale_code, and k
the number of extra-information bytes. -/
def Obligations.SliceHdrLoadsTheSlice : Prop :=
  ∀ (s u w : State) (pos q k : Nat), s.quiet → s.readable →
    pos = (s.consume 24).streamNat 8 + (if 2800 < s.vertSize.toNat then (s.consume 32).streamNat 3 * 128 else 0) →
    0 < pos → pos ≤ s.mbRows.toNat →
    u = s.consume (if 2800 < s.vertSize.toNat then 35 else 32) → q = u.streamNat 5 → w = u.consume 5 →
    (∀ j, j < k → (w.consume (9 * j)).streamNat 1 = 1) → (w.consume (9 * k)).streamNat 1 = 0 →
    exec .sliceHdr s = .next (State.complete
      { w.consume (9 * k + 1) with
        result := BitVec.ofNat 32 pos
        mbX := if s.mbY.toNat = pos - 1 then s.mbX else 0
        mbY := BitVec.ofNat 16 (pos - 1)
        qscale := BitVec.ofNat 7 (if s.cfg.qScaleType then
          [0, 1, 2, 3, 4, 5, 6, 7, 8, 10, 12, 14, 16, 18, 20, 22, 24, 28, 32, 36, 40, 44, 48, 52, 56, 64, 72, 80, 88, 96, 104,
            112].getD q 0 else q * 2)
        dcY := BitVec.ofNat 16 (128 * 2 ^ s.cfg.intraDcPrecision.toNat)
        dcCb := BitVec.ofNat 16 (128 * 2 ^ s.cfg.intraDcPrecision.toNat)
        dcCr := BitVec.ofNat 16 (128 * 2 ^ s.cfg.intraDcPrecision.toNat) } .ok)

/-- 44 R257: the extra-information loop meets a continuation bit 0 after at most MAX / 9 + 1 bytes, wherever it starts. -/
def Obligations.ExtraInformationEnds : Prop :=
  ∀ w : State, ∃ k, k ≤ w.maxBit / 9 + 1 ∧ (∀ j, j < k → (w.consume (9 * j)).streamNat 1 = 1) ∧
    (w.consume (9 * k)).streamNat 1 = 0

/-- 44 R251, R253: DC_RESET sets the three predictors to 128, 256, 512 or 1024 by INTRA_DC_PRECISION, reads no stream bits and
changes nothing else. -/
def Obligations.DcResetRestoresThePredictors : Prop :=
  ∀ (s : State) (v : BitVec 16),
    v.toNat = [128, 256, 512, 1024].getD s.cfg.intraDcPrecision.toNat 0 →
    exec .dcReset s = .next (State.complete { s with dcY := v, dcCb := v, dcCr := v } .ok)

/-! ## VLD -/

/-- 30 R100, R101: every stream position starts with exactly one codeword of each DC size table. -/
def Obligations.DcTablesAreComplete : Prop :=
  ∀ (s : State) (cc : Component), ∃ r ∈ dcTable cc, s.streamNat r.len = r.code ∧
    ∀ q ∈ dcTable cc, s.streamNat q.len = q.code → q = r

/-- 42 R171, 30 R102: DcDiff reads the size codeword, of DC_LUMA for Y and of DC_CHROMA for Cb and Cr, and then `size` bits; a
top bit of 0 makes the differential negative. The stream always starts with a size codeword. -/
def Obligations.DcDiffReadsSizeAndBits : Prop :=
  (dcTable .y = dcLuma ∧ dcTable .cb = dcChroma ∧ dcTable .cr = dcChroma) ∧
  ∀ (s : State) (cc : Component), s.quiet → s.readable →
    (∃ r ∈ dcTable cc, s.streamNat r.len = r.code) ∧
    ∀ (r : VlcRow Nat) (bits : Nat), r ∈ dcTable cc → s.streamNat r.len = r.code →
      bits = (s.consume r.len).streamNat r.sym →
      dcDiff cc s = .ok
        (if r.sym = 0 then 0 else if bits < 2 ^ (r.sym - 1) then (bits : Int) - (2 ^ r.sym - 1) else bits)
        (s.consume (r.len + r.sym))

/-- 42 R198: the differential of the field that codes d is d, for every size 1 to 11 and every d of that size. -/
def Obligations.DcDifferentialRoundTrips : Prop :=
  ∀ (size : Nat) (d : Int), 1 ≤ size → size ≤ 11 → (2 : Int) ^ (size - 1) ≤ |d| → |d| ≤ 2 ^ size - 1 →
    dcDifferential size (if 0 < d then d else d + 2 ^ size - 1).toNat = d

/-- 42 R170, R173, R196: with a table of the form of 30 R103, a codeword for (run, a) and its sign bit decode to (run, a) or
(run, -a) in length + 1 bits, and the EOB codeword to EOB. -/
def Obligations.AcSymbolDecodesEveryCodeword : Prop :=
  ∀ (s : State) (table : AcTable) (r : VlcRow AcSym), s.quiet → s.readable → acTableWellFormed table = true → r ∈ table →
    s.streamNat r.len = r.code →
    (r.sym = .eob → acSymbol table s = .ok .eob (s.consume r.len)) ∧
      ∀ run a, r.sym = .runLevel run a →
        acSymbol table s =
          .ok (.coeff run (if (s.consume r.len).streamNat 1 = 1 then -(a : Int) else a)) (s.consume (r.len + 1))

/-- 42 R174, R175, R176, 30 R95, R96: after 000001 come run and level; the MPEG-2 level is 12 bits, the MPEG-1 level 8 bits or,
after 0x00 or 0x80, a second byte. -/
def Obligations.EscapesDecodeRunAndLevel : Prop :=
  ∀ (s : State) (table : AcTable) (run b1 : Nat), s.quiet → s.readable → acTableWellFormed table = true →
    s.streamNat 6 = 0b000001 → run = (s.consume 6).streamNat 6 → b1 = (s.consume 12).streamNat 8 →
    (s.cfg.mpeg2 = true → ∀ v, v = (s.consume 12).streamNat 12 →
      acSymbol table s = .ok (.coeff run (if v < 2048 then (v : Int) else v - 4096)) (s.consume 24)) ∧
    (s.cfg.mpeg2 = false → b1 ≠ 0x00 → b1 ≠ 0x80 →
      acSymbol table s = .ok (.coeff run (if b1 < 128 then (b1 : Int) else b1 - 256)) (s.consume 20)) ∧
    (s.cfg.mpeg2 = false → b1 = 0x00 →
      acSymbol table s = .ok (.coeff run ((s.consume 20).streamNat 8)) (s.consume 28)) ∧
    (s.cfg.mpeg2 = false → b1 = 0x80 →
      acSymbol table s = .ok (.coeff run (((s.consume 20).streamNat 8 : Int) - 256)) (s.consume 28))

/-- 42 R183, 30 R104: the strings that match no codeword of AC_TABLE_ZERO are exactly those that begin with 12 zeros, and
nothing is consumed at one. -/
def Obligations.TwelveZerosMatchNoCodeword : Prop :=
  ∀ s : State, s.quiet → s.readable → (acSymbol acTableZero s = .ok .invalid s ↔ s.streamNat 12 = 0) ∧
    ∀ t, acSymbol acTableZero s = .ok .invalid t → t = s

/-- 42 R190, R172, R181-R183, R193: what DEC_INTRA leaves, for every table, every parse of the block and each of its three
ends. The table is AC_TABLE_ZERO, or AC_TABLE_ONE when MPEG2 = 1 and INTRA_VLC_FORMAT = 1 (42 R177), `d` is the DC
differential, `rest` the AC coefficients and `u` has the cursor after the block's last read. -/
def Obligations.DecIntraDecodesTheBlock : Prop :=
  ∀ (s v u : State) (cc : Component) (table : AcTable) (d : Int) (rest : List (Nat × Int)) (e : BlockEnd),
    (s.cfg.mpeg2 = false ∨ s.cfg.intraVlcFormat = false → table = acTableZero) →
    (s.cfg.mpeg2 = true → s.cfg.intraVlcFormat = true → s.acTableOne = some table) →
    dcDiff cc s = .ok d v → Parses table 1 v rest e u →
    exec (.decIntra cc) s = .next (blockResult ((s.setDcPred cc (s.dcPred cc + BitVec.ofInt 16 d)).withCursorOf u)
      ((0, max (-2048) (min 2047 ((s.dcPred cc + BitVec.ofInt 16 d).toInt * 2 ^ (3 - s.cfg.intraDcPrecision.toNat)))) ::
        placements s true 1 rest) e)

/-- 42 R191, R179, R181-R183, R193: what DEC_NONINTRA leaves, for every parse of the block and each of its three ends. A leading
bit 1 is the first coefficient 1s. -/
def Obligations.DecNonintraDecodesTheBlock : Prop :=
  ∀ (s v u : State) (first rest : List (Nat × Int)) (e : BlockEnd), s.quiet → s.readable →
    ((s.streamNat 1 = 0 ∧ first = [] ∧ v = s) ∨
      (s.streamNat 1 = 1 ∧ first = [(0, if (s.consume 1).streamNat 1 = 1 then -1 else 1)] ∧ v = s.consume 2)) →
    Parses acTableZero first.length v rest e u →
    exec .decNonintra s = .next (blockResult (s.withCursorOf u) (placements s false 0 (first ++ rest)) e)

/-- 42 R178: DEC_INTRA faults exactly when it selects AC_TABLE_ONE (42 R177) and the parameter is not supplied. -/
def Obligations.DecIntraFaultsWithoutItsTable : Prop :=
  ∀ (s : State) (cc : Component), exec (.decIntra cc) s = .fault .acTableOneMissing ↔
    s.cfg.mpeg2 = true ∧ s.cfg.intraVlcFormat = true ∧ s.acTableOne = none

/-- 42 R197: the first symbol of a non-intra block, read from the table when its first bit is 0, is never EOB, so a non-intra
block that completes with OK has at least one coefficient. -/
def Obligations.NonintraBlockHasACoefficient : Prop :=
  (∀ s t : State, s.quiet → s.streamNat 1 = 0 → acSymbol acTableZero s ≠ .ok .eob t) ∧
  ∀ s t : State, s.quiet → exec .decNonintra s = .next t → t.stuck = false → t.errCode = .ok →
    0 < t.blkCount.toNat

/-- 43 R229: after a DEC command that completes with OK in MPEG-2 mode the sum of the block's values is odd. -/
def Obligations.Mpeg2BlockSumIsOdd : Prop :=
  ∀ (i : Instr) (s t : State), (i = .decNonintra ∨ ∃ cc, i = .decIntra cc) → exec i s = .next t → t.stuck = false →
    t.errCode = .ok → s.cfg.mpeg2 = true →
    ((List.range t.blkCount.toNat).map fun j => (t.entry j).value.toInt).sum % 2 = 1

/-- 42 R181: the positions of a block's entries are distinct. -/
def Obligations.BlockPositionsAreDistinct : Prop :=
  ∀ (i : Instr) (s t : State), (i = .decNonintra ∨ ∃ cc, i = .decIntra cc) → exec i s = .next t → t.stuck = false →
    ∀ j k, j < k → k < t.blkCount.toNat → (t.entry j).pos ≠ (t.entry k).pos

/-- 10 R34: a DEC command leaves the entries of LIST at BLK_COUNT and above as they were. -/
def Obligations.DecKeepsEntriesPastTheCount : Prop :=
  ∀ (i : Instr) (s t : State), (i = .decNonintra ∨ ∃ cc, i = .decIntra cc) → exec i s = .next t →
    ∀ j, t.blkCount.toNat ≤ j → t.entry j = s.entry j

/-! ## Inverse quantizer and matrices -/

/-- 43 R222, R223: the inverse-quantized value of a level at raster position p, with the MPEG-1 odd-rounding correction as
t - 1 for an even t other than 0. P_INTRA_K is 0 (00 R5; log 13). -/
def Obligations.InverseQuantizeFormula : Prop :=
  ∀ (s : State) (intra : Bool) (p : Nat) (level : Int) (t : Nat) (m : Int),
    t = (2 * level.natAbs + (if intra then 0 else 1)) *
      ((if intra then s.qmIntra else s.qmInter).getD p 0).toNat * s.qscale.toNat / 32 →
    m = (if s.cfg.mpeg2 then (t : Int) else if t = 0 then 0 else if t % 2 = 0 then (t : Int) - 1 else t) →
    s.iq level p intra = max (-2048) (min 2047 (if level < 0 then -m else m))

/-- 43 R237: the worked values. -/
def Obligations.InverseQuantizeWorkedValues : Prop :=
  inverseQuantize true true 16 16 2 = 32 ∧ inverseQuantize false true 16 16 2 = 31 ∧
  inverseQuantize true false 16 16 1 = 24 ∧ inverseQuantize false false 16 16 1 = 23 ∧
  inverseQuantize true false 16 16 (-1) = -24 ∧ inverseQuantize false false 16 16 (-1) = -23 ∧
  inverseQuantize false true 19 10 3 = 35 ∧ inverseQuantize true false 33 62 (-7) = -959 ∧
  inverseQuantize true true 255 112 2047 = 2047 ∧ inverseQuantize true true 255 112 (-2048) = -2048 ∧
  inverseQuantize false false 255 112 (-2048) = -2048 ∧ inverseQuantize true false 16 16 0 = 8 ∧
  inverseQuantize false false 16 16 0 = 7 ∧ inverseQuantize true true 16 0 5 = 0 ∧ inverseQuantize false true 0 16 5 = 0 ∧
  inverseQuantize false true 8 1 1 = 0 ∧ inverseQuantize false true 8 2 1 = 1

/-- 43 R228: mismatch control does nothing when the parity is odd; otherwise it toggles the low bit of the entry at position
63, or appends the entry (63, 1) when the last entry is at another position, and sets bits 7 of both masks. -/
def Obligations.MismatchTogglesCoefficient63 : Prop :=
  ∀ s : State, s.mismatch true = s ∧
    (s.blkCount.toNat ≤ 64 → 0 < s.blkCount.toNat → (s.entry (s.blkCount.toNat - 1)).pos = 63 →
      s.mismatch false =
        { s with
          list := s.list.setIfInBounds (s.blkCount.toNat - 1) ⟨(s.entry (s.blkCount.toNat - 1)).value ^^^ 1, 63⟩
          rowMask := s.rowMask ||| 0x80
          colMask := s.colMask ||| 0x80 }) ∧
    (s.blkCount.toNat ≤ 63 → (s.blkCount.toNat = 0 ∨ (s.entry (s.blkCount.toNat - 1)).pos ≠ 63) →
      s.mismatch false =
        { s with
          list := s.list.setIfInBounds s.blkCount.toNat ⟨1, 63⟩
          blkCount := BitVec.ofNat 7 (s.blkCount.toNat + 1)
          rowMask := s.rowMask ||| 0x80
          colMask := s.colMask ||| 0x80 })

/-- 43 R231, R233: QM_DEFAULT loads the defaults of the matrices it selects, moves no cursor and changes nothing else. -/
def Obligations.QmDefaultLoadsTheDefaults : Prop :=
  ∀ (s : State) (intra inter : Bool), (intra || inter) = true →
    exec (.qmDefault intra inter) s = .next (State.complete
      { s with
        qmIntra := if intra then State.reset.qmIntra else s.qmIntra
        qmInter := if inter then Vector.replicate 64 16 else s.qmInter } .ok)

/-- 43 R232, R234, 30 R114: QM_LOAD puts byte i of the next 512 bits at raster position ZIGZAG[i] of the matrix it names,
advances the cursor by 512 and changes nothing else. -/
def Obligations.QmLoadReadsTheMatrixInZigzagOrder : Prop :=
  ∀ (s : State) (m : WeightSel), s.quiet → s.readable →
    ∃ q : Vector Byte 64,
      exec (.qmLoad m) s = .next (State.complete ((s.consume 512).setMatrix m q) .ok) ∧
      ∀ i, i < 64 → q.getD (zigzag.getD i 0) 0 = BitVec.ofNat 8 ((s.consume (8 * i)).streamNat 8)

/-! ## All commands -/

/-- 40 to 44, "Status written": a command changes no register, flag or byte of memory outside those its rule lists
(`writesOf`); CMDERR never changes and OVERRUN is never cleared. -/
def Obligations.CommandsWriteOnlyTheirRegisters : Prop :=
  ∀ (i : Instr) (s t : State), exec i s = .next t →
    (∀ r, r ≠ .status → t.regValue r &&& ~~~(writesOf i).mask r = s.regValue r &&& ~~~(writesOf i).mask r) ∧
    t.cmdErr = s.cmdErr ∧ ((writesOf i).found = false → t.found = s.found) ∧
    ((writesOf i).cursor = false → t.overrun = s.overrun) ∧ (s.overrun = true → t.overrun = true) ∧
    ∀ a, Memory.read t.mem a = Memory.read s.mem a

/-- 70 R314: every command completes when the buffer can be read, a DEC_INTRA given its table. -/
def Obligations.EveryCommandCompletes : Prop :=
  ∀ (i : Instr) (s : State), s.readable → (∀ cc, i = .decIntra cc → s.intraTable ≠ none) →
    ∃ t, exec i s = .next t ∧ t.command = none ∧ t.done = true ∧ t.stuck = false

/-- 00 R10, 60 R275, 42 R178: a command answers a next state in every state, but for a DEC_INTRA without its table. -/
def Obligations.OnlyDecIntraCanFault : Prop :=
  ∀ (i : Instr) (s : State),
    (∃ t, exec i s = .next t) ∨ (exec i s = .fault .acTableOneMissing ∧ ∃ cc, i = .decIntra cc)

/-! ## The host's side -/

/-- 10 R20-R35: a write of an RW register while idle reads back in the register's implemented bits, the reserved bits read 0,
and no other register changes but BS_MAX with BS_LEN. -/
def Obligations.RegisterWritesReadBack : Prop :=
  ∀ (s : State) (v : Word), s.busy = false →
    (s.writeReg .bsBase v).regValue .bsBase = v ∧ (s.writeReg .bsLen v).regValue .bsLen = v &&& 0x0FFFFFFF ∧
    (s.writeReg .bsLen v).regValue .bsMax = BitVec.ofNat 32 (8 * (v.toNat % 2 ^ 28)) ∧
    (s.writeReg .bsOffset v).regValue .bsOffset = v ∧ (s.writeReg .cfg v).regValue .cfg = v &&& 0x3F ∧
    (s.writeReg .vertSize v).regValue .vertSize = v &&& 0x3FFF ∧ (s.writeReg .mbRows v).regValue .mbRows = v &&& 0x7FF ∧
    (s.writeReg .qscale v).regValue .qscale = v &&& 0x7F ∧ (s.writeReg .mbPos v).regValue .mbPos = v ∧
    (∀ c, (s.writeReg (.dcPred c) v).regValue (.dcPred c) = v &&& 0xFFFF) ∧
    (∀ m j, j < 16 → (s.writeReg (.matrix m j) v).regValue (.matrix m j) = v) ∧
    ∀ r q : Reg, r ≠ .ctrl → r ≠ .status → r ≠ .cmd → q ≠ r → ¬(r = .bsLen ∧ q = .bsMax) →
      (s.writeReg r v).regValue q = s.regValue q

/-- 10 R20, R21: a write to a read-only register or a reserved offset is ignored and sets no flag, busy or not, and a reserved
offset reads 0. -/
def Obligations.ReadOnlyAndReservedWritesAreIgnored : Prop :=
  ∀ (s : State) (offset : BitVec 10) (v : Word),
    ((regAt offset = none ∨ regAt offset = some .id ∨ regAt offset = some .result ∨ regAt offset = some .bsMax ∨
        regAt offset = some .blkCount ∨ regAt offset = some .blkMask ∨ ∃ i, regAt offset = some (.list i)) →
      s.hostWrite offset v = s) ∧
    (regAt offset = none → s.readOffset offset = 0)

/-- 10 R24: a write to STATUS clears DONE, OVERRUN and CMDERR where its bits 1, 3 and 4 are 1, busy or not, and changes nothing
else. -/
def Obligations.StatusWriteClearsByOne : Prop :=
  ∀ (s : State) (v : Word), s.hostWrite 0x008 v =
    { s with
      done := s.done && !v.getLsbD 1
      overrun := s.overrun && !v.getLsbD 3
      cmdErr := s.cmdErr && !v.getLsbD 4 }

/-- 70 R311, 10 R36: a CMD write while BUSY = 0 sets BUSY and starts the command; it clears no flag and changes no register. -/
def Obligations.CmdWriteStartsTheCommand : Prop :=
  ∀ (s : State) (w : Word) (rest : List HostEvent), s.turn = .host → s.agenda = .write 0x00C .word w :: rest →
    s.busy = false →
    ∃ t, step s = .next t ∧ t.command = some w ∧ t.busy = true ∧ t.done = s.done ∧ t.found = s.found ∧
      t.overrun = s.overrun ∧ t.cmdErr = s.cmdErr ∧ t.errCode = s.errCode ∧
      (∀ r, r ≠ .status → t.regValue r = s.regValue r) ∧ t.mem = s.mem

/-- 70 R315: while BUSY = 1 a write to CMD or to an RW register other than CTRL and STATUS is dropped and sets CMDERR. -/
def Obligations.BusyWritesAreDropped : Prop :=
  ∀ (s : State) (offset : BitVec 10) (v : Word) (rest : List HostEvent) (r : Reg), s.turn = .host →
    s.agenda = .write offset .word v :: rest → offset.toNat % 4 = 0 → s.busy = true → regAt offset = some r →
    (r ∈ [.cmd, .bsBase, .bsLen, .bsOffset, .cfg, .vertSize, .mbRows, .qscale, .mbPos, .dcPred .y, .dcPred .cb, .dcPred .cr] ∨
      ∃ m j, r = .matrix m j) →
    step s = .next { s with cmdErr := true, agenda := rest }

/-- 10 R21, 20 R67: an aligned 32-bit read while idle returns the register's value and changes no register, flag or byte. -/
def Obligations.IdleReadsReturnTheRegister : Prop :=
  ∀ (s : State) (offset : BitVec 10) (rest : List HostEvent) (r : Reg), s.turn = .host →
    s.agenda = .read offset .word :: rest → offset.toNat % 4 = 0 → s.busy = false → regAt offset = some r →
    ∃ t, step s = .next t ∧ t.reads = s.regValue r :: s.reads ∧ (∀ q, t.regValue q = s.regValue q) ∧
      t.command = s.command ∧ t.mem = s.mem

/-- 70 R316: while BUSY = 1 a read returns the register's value in every bit that the command in progress may not write: BUSY,
DONE, CMDERR, ID and every register its rule does not list; an illegal word writes ERRCODE only (60 R272). That the reserved
bits stay 0 is the model's inference (log 5). -/
def Obligations.BusyReadsKeepTheUnwrittenBits : Prop :=
  ∀ (s : State) (w : Word) (r : Reg), s.command = some w →
    (∀ i, decode w = .ok i →
      (s.readReg r &&& ~~~(writesOf i).mask r = s.regValue r &&& ~~~(writesOf i).mask r) ∧
        (r = .status → s.readReg r &&& 0xFFFF0013 = s.regValue r &&& 0xFFFF0013)) ∧
    ∀ e, decode w = .error e →
      (r ≠ .status → s.readReg r = s.regValue r) ∧
        (r = .status → s.readReg r &&& 0xFFFF00FF = s.regValue r &&& 0xFFFF00FF)

/-- 20 R67, 93 S3: a narrow or misaligned register access is refused (log 12). -/
def Obligations.UndefinedAccessesAreRefused : Prop :=
  ∀ (s : State) (offset : BitVec 10) (width : AccessWidth) (v : Word) (rest : List HostEvent), s.turn = .host →
    (s.agenda = .write offset width v :: rest ∨ s.agenda = .read offset width :: rest) →
    (width ≠ .word ∨ offset.toNat % 4 ≠ 0) → step s = .refused .undefinedRegisterAccess

/-- 20 R68: a byte stored to host memory reads back at its address, every other address is unchanged, and no register changes.
That every address takes a byte is the model's choice (log 24). -/
def Obligations.HostStoresReadBack : Prop :=
  ∀ (s : State) (addr : Word) (b : Byte) (rest : List HostEvent), s.turn = .host →
    s.agenda = .store addr b :: rest →
    ∃ t, step s = .next t ∧ Memory.read t.mem addr.toNat = some b ∧
      (∀ a, a ≠ addr.toNat → Memory.read t.mem a = Memory.read s.mem a) ∧ (∀ r, t.regValue r = s.regValue r) ∧
      t.command = s.command

/-- 20 R73, 92 D44: a command that met a rejected read never completes: a step leaves it in progress, or resets the block
(log 8). The reset advances the counter of the free values, so that what the stuck command drew at its racing reads (20 R69)
no later command draws again (log 6, 16). -/
def Obligations.StuckCommandEndsOnlyByReset : Prop :=
  ∀ (s t : State) (w : Word), s.command = some w → s.stuck = true → step s = .next t →
    (t.command = some w ∧ t.stuck = true ∧ (t.done = true → s.done = true)) ∨
      ((∀ r, t.regValue r = State.reset.regValue r) ∧ t.command = none ∧ s.draws < t.draws)

/-! ## The invariant -/

/-- 10 R33, R34, R39: the invariant holds after reset. -/
def Obligations.ResetMeetsTheInvariant : Prop := State.reset.Inv

/-- 10 R33, R34, 42 R192: from every state that meets the invariant a step gives a state that meets it: host memory keeps its
canonical form, BLK_COUNT stays at most 64, the masks name exactly the rows and columns of the entries, and the values stay
in [-2048, 2047]. -/
def Obligations.StepKeepsTheInvariant : Prop := ∀ s t : State, s.Inv → step s = .next t → t.Inv

/-! ## The coefficient list, the register map and the constant tables -/

/-- 42 R181, R180: Append(p, v) writes VALUE = v and POS = p at entry BLK_COUNT, counts it, sets the bit of its row in ROWMASK
and of its column in COLMASK and changes nothing else; Place ends with MB_TEX_DECODE_ERR past scan index 63, and otherwise
appends the dequantized level at the scan's position, raises the scan index and adds the value to the parity. -/
def Obligations.PlaceAppendsOneEntry : Prop :=
  (∀ (s : State) (p : Nat) (v : Int), p < 64 → -2048 ≤ v → v ≤ 2047 → s.blkCount.toNat < 64 →
    ((s.append p v).entry s.blkCount.toNat).value.toInt = v ∧ ((s.append p v).entry s.blkCount.toNat).pos.toNat = p ∧
    (∀ j, j ≠ s.blkCount.toNat → (s.append p v).entry j = s.entry j) ∧
    (s.append p v).blkCount.toNat = s.blkCount.toNat + 1 ∧
    (∀ j, j < 8 → (s.append p v).rowMask.getLsbD j = (s.rowMask.getLsbD j || decide (j = p / 8))) ∧
    (∀ j, j < 8 → (s.append p v).colMask.getLsbD j = (s.colMask.getLsbD j || decide (j = p % 8))) ∧
    { s.append p v with list := s.list, blkCount := s.blkCount, rowMask := s.rowMask, colMask := s.colMask } = s) ∧
  ∀ (s : State) (intra : Bool) (run : Nat) (level : Int) (g : Progress) (n p : Nat) (v : Int), n = g.n + run →
    p = (if s.cfg.alternateScan then altScan else zigzag).getD n 0 → v = s.iq level p intra →
    place intra run level g s =
      if n ≤ 63 then .ok ⟨n + 1, g.par ^^ decide (v % 2 = 1)⟩ (s.append p v) else .error .mbTexDecodeErr s

/-- 10 R20: the register at each offset, and none at the reserved ones. -/
def Obligations.RegisterMapIsTheSpecs : Prop :=
  regAt 0x000 = some .id ∧ regAt 0x004 = some .ctrl ∧ regAt 0x008 = some .status ∧ regAt 0x00C = some .cmd ∧
  regAt 0x010 = some .result ∧ regAt 0x014 = some .bsBase ∧ regAt 0x018 = some .bsLen ∧ regAt 0x01C = some .bsOffset ∧
  regAt 0x020 = some .bsMax ∧ regAt 0x024 = some .cfg ∧ regAt 0x028 = some .vertSize ∧ regAt 0x02C = some .mbRows ∧
  regAt 0x030 = some .qscale ∧ regAt 0x034 = some .mbPos ∧ regAt 0x038 = some (.dcPred .y) ∧
  regAt 0x03C = some (.dcPred .cb) ∧ regAt 0x040 = some (.dcPred .cr) ∧ regAt 0x044 = some .blkCount ∧
  regAt 0x048 = some .blkMask ∧ (∀ i, i < 64 → regAt (BitVec.ofNat 10 (0x100 + 4 * i)) = some (.list i)) ∧
  (∀ j, j < 16 → regAt (BitVec.ofNat 10 (0x200 + 4 * j)) = some (.matrix .intra j)) ∧
  (∀ j, j < 16 → regAt (BitVec.ofNat 10 (0x240 + 4 * j)) = some (.matrix .inter j)) ∧
  ∀ offset : BitVec 10, (0x04C ≤ offset.toNat ∧ offset.toNat < 0x100) ∨ 0x280 ≤ offset.toNat → regAt offset = none

/-- 10 R24 to R35: the fields of each register that holds more than one, by their bits, and the state each of the others shows.
BUSY is 1 exactly while a command is in progress. -/
def Obligations.RegisterFieldsAreTheSpecs : Prop :=
  ∀ s : State,
    ((s.regValue .status).getLsbD 0 = s.command.isSome ∧ (s.regValue .status).getLsbD 1 = s.done ∧
      (s.regValue .status).getLsbD 2 = s.found ∧ (s.regValue .status).getLsbD 3 = s.overrun ∧
      (s.regValue .status).getLsbD 4 = s.cmdErr ∧ (s.regValue .status).extractLsb' 5 3 = 0 ∧
      (s.regValue .status).extractLsb' 8 8 = s.errCode.toByte ∧ (s.regValue .status).extractLsb' 16 16 = 0) ∧
    ((s.regValue .cfg).getLsbD 0 = s.cfg.mpeg2 ∧ (s.regValue .cfg).getLsbD 1 = s.cfg.qScaleType ∧
      (s.regValue .cfg).getLsbD 2 = s.cfg.intraVlcFormat ∧ (s.regValue .cfg).getLsbD 3 = s.cfg.alternateScan ∧
      (s.regValue .cfg).extractLsb' 4 2 = s.cfg.intraDcPrecision ∧ (s.regValue .cfg).extractLsb' 6 26 = 0) ∧
    ((s.regValue .mbPos).extractLsb' 0 16 = s.mbX ∧ (s.regValue .mbPos).extractLsb' 16 16 = s.mbY) ∧
    ((s.regValue .blkMask).extractLsb' 0 8 = s.rowMask ∧ (s.regValue .blkMask).extractLsb' 8 8 = s.colMask ∧
      (s.regValue .blkMask).extractLsb' 16 16 = 0) ∧
    (∀ i, (s.regValue (.list i)).extractLsb' 0 16 = (s.entry i).value ∧
      (s.regValue (.list i)).extractLsb' 16 6 = (s.entry i).pos ∧ (s.regValue (.list i)).extractLsb' 22 10 = 0) ∧
    (∀ j b, j < 16 → b < 4 → (s.regValue (.matrix .intra j)).extractLsb' (8 * b) 8 = s.qmIntra.getD (4 * j + b) 0 ∧
      (s.regValue (.matrix .inter j)).extractLsb' (8 * b) 8 = s.qmInter.getD (4 * j + b) 0) ∧
    s.regValue .result = s.result ∧ s.regValue .bsBase = s.bsBase ∧ (s.regValue .bsLen).toNat = s.bsLen.toNat ∧
    s.regValue .bsOffset = s.bsOffset ∧ (s.regValue .bsMax).toNat = 8 * s.bsLen.toNat ∧
    (s.regValue .vertSize).toNat = s.vertSize.toNat ∧ (s.regValue .mbRows).toNat = s.mbRows.toNat ∧
    (s.regValue .qscale).toNat = s.qscale.toNat ∧ (s.regValue (.dcPred .y)).toNat = s.dcY.toNat ∧
    (s.regValue (.dcPred .cb)).toNat = s.dcCb.toNat ∧ (s.regValue (.dcPred .cr)).toNat = s.dcCr.toNat ∧
    (s.regValue .blkCount).toNat = s.blkCount.toNat

/-- 30 R100, R101, R104, R110, R111: the rows (length, codeword, symbol) of DC_LUMA, DC_CHROMA and AC_TABLE_ZERO and the two
scans, as the spec's tables list them. -/
def Obligations.RomTablesAreTheSpecs : Prop :=
  dcLuma.map (fun r => (r.len, r.code, r.sym)) =
    [(3, 0b100, 0), (2, 0b00, 1), (2, 0b01, 2), (3, 0b101, 3), (3, 0b110, 4), (4, 0b1110, 5), (5, 0b11110, 6),
     (6, 0b111110, 7), (7, 0b1111110, 8), (8, 0b11111110, 9), (9, 0b111111110, 10), (9, 0b111111111, 11)] ∧
  dcChroma.map (fun r => (r.len, r.code, r.sym)) =
    [(2, 0b00, 0), (2, 0b01, 1), (2, 0b10, 2), (3, 0b110, 3), (4, 0b1110, 4), (5, 0b11110, 5), (6, 0b111110, 6),
     (7, 0b1111110, 7), (8, 0b11111110, 8), (9, 0b111111110, 9), (10, 0b1111111110, 10), (10, 0b1111111111, 11)] ∧
  zigzag =
    [0, 1, 8, 16, 9, 2, 3, 10, 17, 24, 32, 25, 18, 11, 4, 5, 12, 19, 26, 33, 40, 48, 41, 34, 27, 20, 13, 6, 7, 14,
     21, 28, 35, 42, 49, 56, 57, 50, 43, 36, 29, 22, 15, 23, 30, 37, 44, 51, 58, 59, 52, 45, 38, 31, 39, 46, 53, 60,
     61, 54, 47, 55, 62, 63] ∧
  altScan =
    [0, 8, 16, 24, 1, 9, 2, 10, 17, 25, 32, 40, 48, 56, 57, 49, 41, 33, 26, 18, 3, 11, 4, 12, 19, 27, 34, 42, 50, 58,
     35, 43, 51, 59, 20, 28, 5, 13, 6, 14, 21, 29, 36, 44, 52, 60, 37, 45, 53, 61, 22, 30, 7, 15, 23, 31, 38, 46, 54,
     62, 39, 47, 55, 63] ∧
  acTableZero.map (fun r => (r.len, r.code, r.sym)) =
      [(2, 0b10, .eob), (2, 0b11, .runLevel 0 1), (3, 0b011, .runLevel 1 1), (4, 0b0100, .runLevel 0 2),
       (4, 0b0101, .runLevel 2 1), (5, 0b00101, .runLevel 0 3), (5, 0b00111, .runLevel 3 1),
       (5, 0b00110, .runLevel 4 1), (6, 0b000110, .runLevel 1 2), (6, 0b000111, .runLevel 5 1),
       (6, 0b000101, .runLevel 6 1), (6, 0b000100, .runLevel 7 1), (7, 0b0000110, .runLevel 0 4),
       (7, 0b0000100, .runLevel 2 2), (7, 0b0000111, .runLevel 8 1), (7, 0b0000101, .runLevel 9 1),
       (6, 0b000001, .esc)] ++
      [(8, 0b00100110, .runLevel 0 5), (8, 0b00100001, .runLevel 0 6), (8, 0b00100101, .runLevel 1 3),
       (8, 0b00100100, .runLevel 3 2), (8, 0b00100111, .runLevel 10 1), (8, 0b00100011, .runLevel 11 1),
       (8, 0b00100010, .runLevel 12 1), (8, 0b00100000, .runLevel 13 1), (10, 0b0000001010, .runLevel 0 7),
       (10, 0b0000001100, .runLevel 1 4), (10, 0b0000001011, .runLevel 2 3), (10, 0b0000001111, .runLevel 4 2),
       (10, 0b0000001001, .runLevel 5 2), (10, 0b0000001110, .runLevel 14 1), (10, 0b0000001101, .runLevel 15 1),
       (10, 0b0000001000, .runLevel 16 1)] ++
      [(12, 0b000000011101, .runLevel 0 8), (12, 0b000000011000, .runLevel 0 9),
       (12, 0b000000010011, .runLevel 0 10), (12, 0b000000010000, .runLevel 0 11),
       (12, 0b000000011011, .runLevel 1 5), (12, 0b000000010100, .runLevel 2 4), (12, 0b000000011100, .runLevel 3 3),
       (12, 0b000000010010, .runLevel 4 3), (12, 0b000000011110, .runLevel 6 2), (12, 0b000000010101, .runLevel 7 2),
       (12, 0b000000010001, .runLevel 8 2), (12, 0b000000011111, .runLevel 17 1),
       (12, 0b000000011010, .runLevel 18 1), (12, 0b000000011001, .runLevel 19 1),
       (12, 0b000000010111, .runLevel 20 1), (12, 0b000000010110, .runLevel 21 1)] ++
      [(13, 0b0000000011010, .runLevel 0 12), (13, 0b0000000011001, .runLevel 0 13),
       (13, 0b0000000011000, .runLevel 0 14), (13, 0b0000000010111, .runLevel 0 15),
       (13, 0b0000000010110, .runLevel 1 6), (13, 0b0000000010101, .runLevel 1 7),
       (13, 0b0000000010100, .runLevel 2 5), (13, 0b0000000010011, .runLevel 3 4),
       (13, 0b0000000010010, .runLevel 5 3), (13, 0b0000000010001, .runLevel 9 2),
       (13, 0b0000000010000, .runLevel 10 2), (13, 0b0000000011111, .runLevel 22 1),
       (13, 0b0000000011110, .runLevel 23 1), (13, 0b0000000011101, .runLevel 24 1),
       (13, 0b0000000011100, .runLevel 25 1), (13, 0b0000000011011, .runLevel 26 1)] ++
      [(14, 0b00000000011111, .runLevel 0 16), (14, 0b00000000011110, .runLevel 0 17),
       (14, 0b00000000011101, .runLevel 0 18), (14, 0b00000000011100, .runLevel 0 19),
       (14, 0b00000000011011, .runLevel 0 20), (14, 0b00000000011010, .runLevel 0 21),
       (14, 0b00000000011001, .runLevel 0 22), (14, 0b00000000011000, .runLevel 0 23),
       (14, 0b00000000010111, .runLevel 0 24), (14, 0b00000000010110, .runLevel 0 25),
       (14, 0b00000000010101, .runLevel 0 26), (14, 0b00000000010100, .runLevel 0 27),
       (14, 0b00000000010011, .runLevel 0 28), (14, 0b00000000010010, .runLevel 0 29),
       (14, 0b00000000010001, .runLevel 0 30), (14, 0b00000000010000, .runLevel 0 31)] ++
      [(15, 0b000000000011000, .runLevel 0 32), (15, 0b000000000010111, .runLevel 0 33),
       (15, 0b000000000010110, .runLevel 0 34), (15, 0b000000000010101, .runLevel 0 35),
       (15, 0b000000000010100, .runLevel 0 36), (15, 0b000000000010011, .runLevel 0 37),
       (15, 0b000000000010010, .runLevel 0 38), (15, 0b000000000010001, .runLevel 0 39),
       (15, 0b000000000010000, .runLevel 0 40), (15, 0b000000000011111, .runLevel 1 8),
       (15, 0b000000000011110, .runLevel 1 9), (15, 0b000000000011101, .runLevel 1 10),
       (15, 0b000000000011100, .runLevel 1 11), (15, 0b000000000011011, .runLevel 1 12),
       (15, 0b000000000011010, .runLevel 1 13), (15, 0b000000000011001, .runLevel 1 14)] ++
      [(16, 0b0000000000010011, .runLevel 1 15), (16, 0b0000000000010010, .runLevel 1 16),
       (16, 0b0000000000010001, .runLevel 1 17), (16, 0b0000000000010000, .runLevel 1 18),
       (16, 0b0000000000010100, .runLevel 6 3), (16, 0b0000000000011010, .runLevel 11 2),
       (16, 0b0000000000011001, .runLevel 12 2), (16, 0b0000000000011000, .runLevel 13 2),
       (16, 0b0000000000010111, .runLevel 14 2), (16, 0b0000000000010110, .runLevel 15 2),
       (16, 0b0000000000010101, .runLevel 16 2), (16, 0b0000000000011111, .runLevel 27 1),
       (16, 0b0000000000011110, .runLevel 28 1), (16, 0b0000000000011101, .runLevel 29 1),
       (16, 0b0000000000011100, .runLevel 30 1), (16, 0b0000000000011011, .runLevel 31 1)]
end

