-- ==== Sys2Proof/Laws/State.lean ====
section
/-! SUPPORT. One lemma per field per update of State, so that no proof unfolds a record update: the updates of
Machine/Ops.lean first, then those of the host's side. -/

namespace Sys2Proof.Machine

/-! ### consume -/

@[simp] theorem State.consume_result (s : State) (n : Nat) : (s.consume n).result = s.result := rfl
@[simp] theorem State.consume_bsBase (s : State) (n : Nat) : (s.consume n).bsBase = s.bsBase := rfl
@[simp] theorem State.consume_bsLen (s : State) (n : Nat) : (s.consume n).bsLen = s.bsLen := rfl
@[simp] theorem State.consume_bsOffset (s : State) (n : Nat) : (s.consume n).bsOffset = BitVec.ofNat 32 (s.off + n) := rfl
@[simp] theorem State.consume_cfg (s : State) (n : Nat) : (s.consume n).cfg = s.cfg := rfl
@[simp] theorem State.consume_vertSize (s : State) (n : Nat) : (s.consume n).vertSize = s.vertSize := rfl
@[simp] theorem State.consume_mbRows (s : State) (n : Nat) : (s.consume n).mbRows = s.mbRows := rfl
@[simp] theorem State.consume_qscale (s : State) (n : Nat) : (s.consume n).qscale = s.qscale := rfl
@[simp] theorem State.consume_mbX (s : State) (n : Nat) : (s.consume n).mbX = s.mbX := rfl
@[simp] theorem State.consume_mbY (s : State) (n : Nat) : (s.consume n).mbY = s.mbY := rfl
@[simp] theorem State.consume_dcY (s : State) (n : Nat) : (s.consume n).dcY = s.dcY := rfl
@[simp] theorem State.consume_dcCb (s : State) (n : Nat) : (s.consume n).dcCb = s.dcCb := rfl
@[simp] theorem State.consume_dcCr (s : State) (n : Nat) : (s.consume n).dcCr = s.dcCr := rfl
@[simp] theorem State.consume_blkCount (s : State) (n : Nat) : (s.consume n).blkCount = s.blkCount := rfl
@[simp] theorem State.consume_rowMask (s : State) (n : Nat) : (s.consume n).rowMask = s.rowMask := rfl
@[simp] theorem State.consume_colMask (s : State) (n : Nat) : (s.consume n).colMask = s.colMask := rfl
@[simp] theorem State.consume_list (s : State) (n : Nat) : (s.consume n).list = s.list := rfl
@[simp] theorem State.consume_qmIntra (s : State) (n : Nat) : (s.consume n).qmIntra = s.qmIntra := rfl
@[simp] theorem State.consume_qmInter (s : State) (n : Nat) : (s.consume n).qmInter = s.qmInter := rfl
@[simp] theorem State.consume_done (s : State) (n : Nat) : (s.consume n).done = s.done := rfl
@[simp] theorem State.consume_found (s : State) (n : Nat) : (s.consume n).found = s.found := rfl
@[simp] theorem State.consume_overrun (s : State) (n : Nat) : (s.consume n).overrun = overrunAfter s.overrun (s.off + n) s.maxBit := rfl
@[simp] theorem State.consume_cmdErr (s : State) (n : Nat) : (s.consume n).cmdErr = s.cmdErr := rfl
@[simp] theorem State.consume_errCode (s : State) (n : Nat) : (s.consume n).errCode = s.errCode := rfl
@[simp] theorem State.consume_command (s : State) (n : Nat) : (s.consume n).command = s.command := rfl
@[simp] theorem State.consume_mem (s : State) (n : Nat) : (s.consume n).mem = s.mem := rfl
@[simp] theorem State.consume_stuck (s : State) (n : Nat) : (s.consume n).stuck = s.stuck := rfl
@[simp] theorem State.consume_earlier (s : State) (n : Nat) : (s.consume n).earlier = s.earlier := rfl
@[simp] theorem State.consume_turn (s : State) (n : Nat) : (s.consume n).turn = s.turn := rfl
@[simp] theorem State.consume_agenda (s : State) (n : Nat) : (s.consume n).agenda = s.agenda := rfl
@[simp] theorem State.consume_reads (s : State) (n : Nat) : (s.consume n).reads = s.reads := rfl
@[simp] theorem State.consume_draws (s : State) (n : Nat) : (s.consume n).draws = s.draws := rfl
@[simp] theorem State.consume_acTableOne (s : State) (n : Nat) : (s.consume n).acTableOne = s.acTableOne := rfl

/-! ### setResult -/

@[simp] theorem State.setResult_result (s : State) (v : Nat) : (s.setResult v).result = BitVec.ofNat 32 v := rfl
@[simp] theorem State.setResult_bsBase (s : State) (v : Nat) : (s.setResult v).bsBase = s.bsBase := rfl
@[simp] theorem State.setResult_bsLen (s : State) (v : Nat) : (s.setResult v).bsLen = s.bsLen := rfl
@[simp] theorem State.setResult_bsOffset (s : State) (v : Nat) : (s.setResult v).bsOffset = s.bsOffset := rfl
@[simp] theorem State.setResult_cfg (s : State) (v : Nat) : (s.setResult v).cfg = s.cfg := rfl
@[simp] theorem State.setResult_vertSize (s : State) (v : Nat) : (s.setResult v).vertSize = s.vertSize := rfl
@[simp] theorem State.setResult_mbRows (s : State) (v : Nat) : (s.setResult v).mbRows = s.mbRows := rfl
@[simp] theorem State.setResult_qscale (s : State) (v : Nat) : (s.setResult v).qscale = s.qscale := rfl
@[simp] theorem State.setResult_mbX (s : State) (v : Nat) : (s.setResult v).mbX = s.mbX := rfl
@[simp] theorem State.setResult_mbY (s : State) (v : Nat) : (s.setResult v).mbY = s.mbY := rfl
@[simp] theorem State.setResult_dcY (s : State) (v : Nat) : (s.setResult v).dcY = s.dcY := rfl
@[simp] theorem State.setResult_dcCb (s : State) (v : Nat) : (s.setResult v).dcCb = s.dcCb := rfl
@[simp] theorem State.setResult_dcCr (s : State) (v : Nat) : (s.setResult v).dcCr = s.dcCr := rfl
@[simp] theorem State.setResult_blkCount (s : State) (v : Nat) : (s.setResult v).blkCount = s.blkCount := rfl
@[simp] theorem State.setResult_rowMask (s : State) (v : Nat) : (s.setResult v).rowMask = s.rowMask := rfl
@[simp] theorem State.setResult_colMask (s : State) (v : Nat) : (s.setResult v).colMask = s.colMask := rfl
@[simp] theorem State.setResult_list (s : State) (v : Nat) : (s.setResult v).list = s.list := rfl
@[simp] theorem State.setResult_qmIntra (s : State) (v : Nat) : (s.setResult v).qmIntra = s.qmIntra := rfl
@[simp] theorem State.setResult_qmInter (s : State) (v : Nat) : (s.setResult v).qmInter = s.qmInter := rfl
@[simp] theorem State.setResult_done (s : State) (v : Nat) : (s.setResult v).done = s.done := rfl
@[simp] theorem State.setResult_found (s : State) (v : Nat) : (s.setResult v).found = s.found := rfl
@[simp] theorem State.setResult_overrun (s : State) (v : Nat) : (s.setResult v).overrun = s.overrun := rfl
@[simp] theorem State.setResult_cmdErr (s : State) (v : Nat) : (s.setResult v).cmdErr = s.cmdErr := rfl
@[simp] theorem State.setResult_errCode (s : State) (v : Nat) : (s.setResult v).errCode = s.errCode := rfl
@[simp] theorem State.setResult_command (s : State) (v : Nat) : (s.setResult v).command = s.command := rfl
@[simp] theorem State.setResult_mem (s : State) (v : Nat) : (s.setResult v).mem = s.mem := rfl
@[simp] theorem State.setResult_stuck (s : State) (v : Nat) : (s.setResult v).stuck = s.stuck := rfl
@[simp] theorem State.setResult_earlier (s : State) (v : Nat) : (s.setResult v).earlier = s.earlier := rfl
@[simp] theorem State.setResult_turn (s : State) (v : Nat) : (s.setResult v).turn = s.turn := rfl
@[simp] theorem State.setResult_agenda (s : State) (v : Nat) : (s.setResult v).agenda = s.agenda := rfl
@[simp] theorem State.setResult_reads (s : State) (v : Nat) : (s.setResult v).reads = s.reads := rfl
@[simp] theorem State.setResult_draws (s : State) (v : Nat) : (s.setResult v).draws = s.draws := rfl
@[simp] theorem State.setResult_acTableOne (s : State) (v : Nat) : (s.setResult v).acTableOne = s.acTableOne := rfl

/-! ### setScan -/

@[simp] theorem State.setScan_result (s : State) (f : Bool) (c : Nat) : (s.setScan f c).result = BitVec.ofNat 32 c := rfl
@[simp] theorem State.setScan_bsBase (s : State) (f : Bool) (c : Nat) : (s.setScan f c).bsBase = s.bsBase := rfl
@[simp] theorem State.setScan_bsLen (s : State) (f : Bool) (c : Nat) : (s.setScan f c).bsLen = s.bsLen := rfl
@[simp] theorem State.setScan_bsOffset (s : State) (f : Bool) (c : Nat) : (s.setScan f c).bsOffset = s.bsOffset := rfl
@[simp] theorem State.setScan_cfg (s : State) (f : Bool) (c : Nat) : (s.setScan f c).cfg = s.cfg := rfl
@[simp] theorem State.setScan_vertSize (s : State) (f : Bool) (c : Nat) : (s.setScan f c).vertSize = s.vertSize := rfl
@[simp] theorem State.setScan_mbRows (s : State) (f : Bool) (c : Nat) : (s.setScan f c).mbRows = s.mbRows := rfl
@[simp] theorem State.setScan_qscale (s : State) (f : Bool) (c : Nat) : (s.setScan f c).qscale = s.qscale := rfl
@[simp] theorem State.setScan_mbX (s : State) (f : Bool) (c : Nat) : (s.setScan f c).mbX = s.mbX := rfl
@[simp] theorem State.setScan_mbY (s : State) (f : Bool) (c : Nat) : (s.setScan f c).mbY = s.mbY := rfl
@[simp] theorem State.setScan_dcY (s : State) (f : Bool) (c : Nat) : (s.setScan f c).dcY = s.dcY := rfl
@[simp] theorem State.setScan_dcCb (s : State) (f : Bool) (c : Nat) : (s.setScan f c).dcCb = s.dcCb := rfl
@[simp] theorem State.setScan_dcCr (s : State) (f : Bool) (c : Nat) : (s.setScan f c).dcCr = s.dcCr := rfl
@[simp] theorem State.setScan_blkCount (s : State) (f : Bool) (c : Nat) : (s.setScan f c).blkCount = s.blkCount := rfl
@[simp] theorem State.setScan_rowMask (s : State) (f : Bool) (c : Nat) : (s.setScan f c).rowMask = s.rowMask := rfl
@[simp] theorem State.setScan_colMask (s : State) (f : Bool) (c : Nat) : (s.setScan f c).colMask = s.colMask := rfl
@[simp] theorem State.setScan_list (s : State) (f : Bool) (c : Nat) : (s.setScan f c).list = s.list := rfl
@[simp] theorem State.setScan_qmIntra (s : State) (f : Bool) (c : Nat) : (s.setScan f c).qmIntra = s.qmIntra := rfl
@[simp] theorem State.setScan_qmInter (s : State) (f : Bool) (c : Nat) : (s.setScan f c).qmInter = s.qmInter := rfl
@[simp] theorem State.setScan_done (s : State) (f : Bool) (c : Nat) : (s.setScan f c).done = s.done := rfl
@[simp] theorem State.setScan_found (s : State) (f : Bool) (c : Nat) : (s.setScan f c).found = f := rfl
@[simp] theorem State.setScan_overrun (s : State) (f : Bool) (c : Nat) : (s.setScan f c).overrun = s.overrun := rfl
@[simp] theorem State.setScan_cmdErr (s : State) (f : Bool) (c : Nat) : (s.setScan f c).cmdErr = s.cmdErr := rfl
@[simp] theorem State.setScan_errCode (s : State) (f : Bool) (c : Nat) : (s.setScan f c).errCode = s.errCode := rfl
@[simp] theorem State.setScan_command (s : State) (f : Bool) (c : Nat) : (s.setScan f c).command = s.command := rfl
@[simp] theorem State.setScan_mem (s : State) (f : Bool) (c : Nat) : (s.setScan f c).mem = s.mem := rfl
@[simp] theorem State.setScan_stuck (s : State) (f : Bool) (c : Nat) : (s.setScan f c).stuck = s.stuck := rfl
@[simp] theorem State.setScan_earlier (s : State) (f : Bool) (c : Nat) : (s.setScan f c).earlier = s.earlier := rfl
@[simp] theorem State.setScan_turn (s : State) (f : Bool) (c : Nat) : (s.setScan f c).turn = s.turn := rfl
@[simp] theorem State.setScan_agenda (s : State) (f : Bool) (c : Nat) : (s.setScan f c).agenda = s.agenda := rfl
@[simp] theorem State.setScan_reads (s : State) (f : Bool) (c : Nat) : (s.setScan f c).reads = s.reads := rfl
@[simp] theorem State.setScan_draws (s : State) (f : Bool) (c : Nat) : (s.setScan f c).draws = s.draws := rfl
@[simp] theorem State.setScan_acTableOne (s : State) (f : Bool) (c : Nat) : (s.setScan f c).acTableOne = s.acTableOne := rfl

/-! ### setQscale -/

@[simp] theorem State.setQscale_result (s : State) (v : Nat) : (s.setQscale v).result = s.result := rfl
@[simp] theorem State.setQscale_bsBase (s : State) (v : Nat) : (s.setQscale v).bsBase = s.bsBase := rfl
@[simp] theorem State.setQscale_bsLen (s : State) (v : Nat) : (s.setQscale v).bsLen = s.bsLen := rfl
@[simp] theorem State.setQscale_bsOffset (s : State) (v : Nat) : (s.setQscale v).bsOffset = s.bsOffset := rfl
@[simp] theorem State.setQscale_cfg (s : State) (v : Nat) : (s.setQscale v).cfg = s.cfg := rfl
@[simp] theorem State.setQscale_vertSize (s : State) (v : Nat) : (s.setQscale v).vertSize = s.vertSize := rfl
@[simp] theorem State.setQscale_mbRows (s : State) (v : Nat) : (s.setQscale v).mbRows = s.mbRows := rfl
@[simp] theorem State.setQscale_qscale (s : State) (v : Nat) : (s.setQscale v).qscale = BitVec.ofNat 7 v := rfl
@[simp] theorem State.setQscale_mbX (s : State) (v : Nat) : (s.setQscale v).mbX = s.mbX := rfl
@[simp] theorem State.setQscale_mbY (s : State) (v : Nat) : (s.setQscale v).mbY = s.mbY := rfl
@[simp] theorem State.setQscale_dcY (s : State) (v : Nat) : (s.setQscale v).dcY = s.dcY := rfl
@[simp] theorem State.setQscale_dcCb (s : State) (v : Nat) : (s.setQscale v).dcCb = s.dcCb := rfl
@[simp] theorem State.setQscale_dcCr (s : State) (v : Nat) : (s.setQscale v).dcCr = s.dcCr := rfl
@[simp] theorem State.setQscale_blkCount (s : State) (v : Nat) : (s.setQscale v).blkCount = s.blkCount := rfl
@[simp] theorem State.setQscale_rowMask (s : State) (v : Nat) : (s.setQscale v).rowMask = s.rowMask := rfl
@[simp] theorem State.setQscale_colMask (s : State) (v : Nat) : (s.setQscale v).colMask = s.colMask := rfl
@[simp] theorem State.setQscale_list (s : State) (v : Nat) : (s.setQscale v).list = s.list := rfl
@[simp] theorem State.setQscale_qmIntra (s : State) (v : Nat) : (s.setQscale v).qmIntra = s.qmIntra := rfl
@[simp] theorem State.setQscale_qmInter (s : State) (v : Nat) : (s.setQscale v).qmInter = s.qmInter := rfl
@[simp] theorem State.setQscale_done (s : State) (v : Nat) : (s.setQscale v).done = s.done := rfl
@[simp] theorem State.setQscale_found (s : State) (v : Nat) : (s.setQscale v).found = s.found := rfl
@[simp] theorem State.setQscale_overrun (s : State) (v : Nat) : (s.setQscale v).overrun = s.overrun := rfl
@[simp] theorem State.setQscale_cmdErr (s : State) (v : Nat) : (s.setQscale v).cmdErr = s.cmdErr := rfl
@[simp] theorem State.setQscale_errCode (s : State) (v : Nat) : (s.setQscale v).errCode = s.errCode := rfl
@[simp] theorem State.setQscale_command (s : State) (v : Nat) : (s.setQscale v).command = s.command := rfl
@[simp] theorem State.setQscale_mem (s : State) (v : Nat) : (s.setQscale v).mem = s.mem := rfl
@[simp] theorem State.setQscale_stuck (s : State) (v : Nat) : (s.setQscale v).stuck = s.stuck := rfl
@[simp] theorem State.setQscale_earlier (s : State) (v : Nat) : (s.setQscale v).earlier = s.earlier := rfl
@[simp] theorem State.setQscale_turn (s : State) (v : Nat) : (s.setQscale v).turn = s.turn := rfl
@[simp] theorem State.setQscale_agenda (s : State) (v : Nat) : (s.setQscale v).agenda = s.agenda := rfl
@[simp] theorem State.setQscale_reads (s : State) (v : Nat) : (s.setQscale v).reads = s.reads := rfl
@[simp] theorem State.setQscale_draws (s : State) (v : Nat) : (s.setQscale v).draws = s.draws := rfl
@[simp] theorem State.setQscale_acTableOne (s : State) (v : Nat) : (s.setQscale v).acTableOne = s.acTableOne := rfl

/-! ### dcReset -/

@[simp] theorem State.dcReset_result (s : State) : (s.dcReset).result = s.result := rfl
@[simp] theorem State.dcReset_bsBase (s : State) : (s.dcReset).bsBase = s.bsBase := rfl
@[simp] theorem State.dcReset_bsLen (s : State) : (s.dcReset).bsLen = s.bsLen := rfl
@[simp] theorem State.dcReset_bsOffset (s : State) : (s.dcReset).bsOffset = s.bsOffset := rfl
@[simp] theorem State.dcReset_cfg (s : State) : (s.dcReset).cfg = s.cfg := rfl
@[simp] theorem State.dcReset_vertSize (s : State) : (s.dcReset).vertSize = s.vertSize := rfl
@[simp] theorem State.dcReset_mbRows (s : State) : (s.dcReset).mbRows = s.mbRows := rfl
@[simp] theorem State.dcReset_qscale (s : State) : (s.dcReset).qscale = s.qscale := rfl
@[simp] theorem State.dcReset_mbX (s : State) : (s.dcReset).mbX = s.mbX := rfl
@[simp] theorem State.dcReset_mbY (s : State) : (s.dcReset).mbY = s.mbY := rfl
@[simp] theorem State.dcReset_dcY (s : State) : (s.dcReset).dcY = BitVec.ofNat 16 (128 * 2 ^ s.cfg.intraDcPrecision.toNat) := rfl
@[simp] theorem State.dcReset_dcCb (s : State) : (s.dcReset).dcCb = BitVec.ofNat 16 (128 * 2 ^ s.cfg.intraDcPrecision.toNat) := rfl
@[simp] theorem State.dcReset_dcCr (s : State) : (s.dcReset).dcCr = BitVec.ofNat 16 (128 * 2 ^ s.cfg.intraDcPrecision.toNat) := rfl
@[simp] theorem State.dcReset_blkCount (s : State) : (s.dcReset).blkCount = s.blkCount := rfl
@[simp] theorem State.dcReset_rowMask (s : State) : (s.dcReset).rowMask = s.rowMask := rfl
@[simp] theorem State.dcReset_colMask (s : State) : (s.dcReset).colMask = s.colMask := rfl
@[simp] theorem State.dcReset_list (s : State) : (s.dcReset).list = s.list := rfl
@[simp] theorem State.dcReset_qmIntra (s : State) : (s.dcReset).qmIntra = s.qmIntra := rfl
@[simp] theorem State.dcReset_qmInter (s : State) : (s.dcReset).qmInter = s.qmInter := rfl
@[simp] theorem State.dcReset_done (s : State) : (s.dcReset).done = s.done := rfl
@[simp] theorem State.dcReset_found (s : State) : (s.dcReset).found = s.found := rfl
@[simp] theorem State.dcReset_overrun (s : State) : (s.dcReset).overrun = s.overrun := rfl
@[simp] theorem State.dcReset_cmdErr (s : State) : (s.dcReset).cmdErr = s.cmdErr := rfl
@[simp] theorem State.dcReset_errCode (s : State) : (s.dcReset).errCode = s.errCode := rfl
@[simp] theorem State.dcReset_command (s : State) : (s.dcReset).command = s.command := rfl
@[simp] theorem State.dcReset_mem (s : State) : (s.dcReset).mem = s.mem := rfl
@[simp] theorem State.dcReset_stuck (s : State) : (s.dcReset).stuck = s.stuck := rfl
@[simp] theorem State.dcReset_earlier (s : State) : (s.dcReset).earlier = s.earlier := rfl
@[simp] theorem State.dcReset_turn (s : State) : (s.dcReset).turn = s.turn := rfl
@[simp] theorem State.dcReset_agenda (s : State) : (s.dcReset).agenda = s.agenda := rfl
@[simp] theorem State.dcReset_reads (s : State) : (s.dcReset).reads = s.reads := rfl
@[simp] theorem State.dcReset_draws (s : State) : (s.dcReset).draws = s.draws := rfl
@[simp] theorem State.dcReset_acTableOne (s : State) : (s.dcReset).acTableOne = s.acTableOne := rfl

/-! ### clearOutput -/

@[simp] theorem State.clearOutput_result (s : State) : (s.clearOutput).result = s.result := rfl
@[simp] theorem State.clearOutput_bsBase (s : State) : (s.clearOutput).bsBase = s.bsBase := rfl
@[simp] theorem State.clearOutput_bsLen (s : State) : (s.clearOutput).bsLen = s.bsLen := rfl
@[simp] theorem State.clearOutput_bsOffset (s : State) : (s.clearOutput).bsOffset = s.bsOffset := rfl
@[simp] theorem State.clearOutput_cfg (s : State) : (s.clearOutput).cfg = s.cfg := rfl
@[simp] theorem State.clearOutput_vertSize (s : State) : (s.clearOutput).vertSize = s.vertSize := rfl
@[simp] theorem State.clearOutput_mbRows (s : State) : (s.clearOutput).mbRows = s.mbRows := rfl
@[simp] theorem State.clearOutput_qscale (s : State) : (s.clearOutput).qscale = s.qscale := rfl
@[simp] theorem State.clearOutput_mbX (s : State) : (s.clearOutput).mbX = s.mbX := rfl
@[simp] theorem State.clearOutput_mbY (s : State) : (s.clearOutput).mbY = s.mbY := rfl
@[simp] theorem State.clearOutput_dcY (s : State) : (s.clearOutput).dcY = s.dcY := rfl
@[simp] theorem State.clearOutput_dcCb (s : State) : (s.clearOutput).dcCb = s.dcCb := rfl
@[simp] theorem State.clearOutput_dcCr (s : State) : (s.clearOutput).dcCr = s.dcCr := rfl
@[simp] theorem State.clearOutput_blkCount (s : State) : (s.clearOutput).blkCount = 0 := rfl
@[simp] theorem State.clearOutput_rowMask (s : State) : (s.clearOutput).rowMask = 0 := rfl
@[simp] theorem State.clearOutput_colMask (s : State) : (s.clearOutput).colMask = 0 := rfl
@[simp] theorem State.clearOutput_list (s : State) : (s.clearOutput).list = s.list := rfl
@[simp] theorem State.clearOutput_qmIntra (s : State) : (s.clearOutput).qmIntra = s.qmIntra := rfl
@[simp] theorem State.clearOutput_qmInter (s : State) : (s.clearOutput).qmInter = s.qmInter := rfl
@[simp] theorem State.clearOutput_done (s : State) : (s.clearOutput).done = s.done := rfl
@[simp] theorem State.clearOutput_found (s : State) : (s.clearOutput).found = s.found := rfl
@[simp] theorem State.clearOutput_overrun (s : State) : (s.clearOutput).overrun = s.overrun := rfl
@[simp] theorem State.clearOutput_cmdErr (s : State) : (s.clearOutput).cmdErr = s.cmdErr := rfl
@[simp] theorem State.clearOutput_errCode (s : State) : (s.clearOutput).errCode = s.errCode := rfl
@[simp] theorem State.clearOutput_command (s : State) : (s.clearOutput).command = s.command := rfl
@[simp] theorem State.clearOutput_mem (s : State) : (s.clearOutput).mem = s.mem := rfl
@[simp] theorem State.clearOutput_stuck (s : State) : (s.clearOutput).stuck = s.stuck := rfl
@[simp] theorem State.clearOutput_earlier (s : State) : (s.clearOutput).earlier = s.earlier := rfl
@[simp] theorem State.clearOutput_turn (s : State) : (s.clearOutput).turn = s.turn := rfl
@[simp] theorem State.clearOutput_agenda (s : State) : (s.clearOutput).agenda = s.agenda := rfl
@[simp] theorem State.clearOutput_reads (s : State) : (s.clearOutput).reads = s.reads := rfl
@[simp] theorem State.clearOutput_draws (s : State) : (s.clearOutput).draws = s.draws := rfl
@[simp] theorem State.clearOutput_acTableOne (s : State) : (s.clearOutput).acTableOne = s.acTableOne := rfl

/-! ### append -/

@[simp] theorem State.append_result (s : State) (p : Nat) (v : Int) : (s.append p v).result = s.result := rfl
@[simp] theorem State.append_bsBase (s : State) (p : Nat) (v : Int) : (s.append p v).bsBase = s.bsBase := rfl
@[simp] theorem State.append_bsLen (s : State) (p : Nat) (v : Int) : (s.append p v).bsLen = s.bsLen := rfl
@[simp] theorem State.append_bsOffset (s : State) (p : Nat) (v : Int) : (s.append p v).bsOffset = s.bsOffset := rfl
@[simp] theorem State.append_cfg (s : State) (p : Nat) (v : Int) : (s.append p v).cfg = s.cfg := rfl
@[simp] theorem State.append_vertSize (s : State) (p : Nat) (v : Int) : (s.append p v).vertSize = s.vertSize := rfl
@[simp] theorem State.append_mbRows (s : State) (p : Nat) (v : Int) : (s.append p v).mbRows = s.mbRows := rfl
@[simp] theorem State.append_qscale (s : State) (p : Nat) (v : Int) : (s.append p v).qscale = s.qscale := rfl
@[simp] theorem State.append_mbX (s : State) (p : Nat) (v : Int) : (s.append p v).mbX = s.mbX := rfl
@[simp] theorem State.append_mbY (s : State) (p : Nat) (v : Int) : (s.append p v).mbY = s.mbY := rfl
@[simp] theorem State.append_dcY (s : State) (p : Nat) (v : Int) : (s.append p v).dcY = s.dcY := rfl
@[simp] theorem State.append_dcCb (s : State) (p : Nat) (v : Int) : (s.append p v).dcCb = s.dcCb := rfl
@[simp] theorem State.append_dcCr (s : State) (p : Nat) (v : Int) : (s.append p v).dcCr = s.dcCr := rfl
@[simp] theorem State.append_blkCount (s : State) (p : Nat) (v : Int) : (s.append p v).blkCount = s.blkCount + 1 := rfl
@[simp] theorem State.append_rowMask (s : State) (p : Nat) (v : Int) : (s.append p v).rowMask = rowMaskWith s.rowMask p := rfl
@[simp] theorem State.append_colMask (s : State) (p : Nat) (v : Int) : (s.append p v).colMask = colMaskWith s.colMask p := rfl
@[simp] theorem State.append_list (s : State) (p : Nat) (v : Int) : (s.append p v).list = s.list.setIfInBounds s.blkCount.toNat ⟨BitVec.ofInt 16 v, BitVec.ofNat 6 p⟩ := rfl
@[simp] theorem State.append_qmIntra (s : State) (p : Nat) (v : Int) : (s.append p v).qmIntra = s.qmIntra := rfl
@[simp] theorem State.append_qmInter (s : State) (p : Nat) (v : Int) : (s.append p v).qmInter = s.qmInter := rfl
@[simp] theorem State.append_done (s : State) (p : Nat) (v : Int) : (s.append p v).done = s.done := rfl
@[simp] theorem State.append_found (s : State) (p : Nat) (v : Int) : (s.append p v).found = s.found := rfl
@[simp] theorem State.append_overrun (s : State) (p : Nat) (v : Int) : (s.append p v).overrun = s.overrun := rfl
@[simp] theorem State.append_cmdErr (s : State) (p : Nat) (v : Int) : (s.append p v).cmdErr = s.cmdErr := rfl
@[simp] theorem State.append_errCode (s : State) (p : Nat) (v : Int) : (s.append p v).errCode = s.errCode := rfl
@[simp] theorem State.append_command (s : State) (p : Nat) (v : Int) : (s.append p v).command = s.command := rfl
@[simp] theorem State.append_mem (s : State) (p : Nat) (v : Int) : (s.append p v).mem = s.mem := rfl
@[simp] theorem State.append_stuck (s : State) (p : Nat) (v : Int) : (s.append p v).stuck = s.stuck := rfl
@[simp] theorem State.append_earlier (s : State) (p : Nat) (v : Int) : (s.append p v).earlier = s.earlier := rfl
@[simp] theorem State.append_turn (s : State) (p : Nat) (v : Int) : (s.append p v).turn = s.turn := rfl
@[simp] theorem State.append_agenda (s : State) (p : Nat) (v : Int) : (s.append p v).agenda = s.agenda := rfl
@[simp] theorem State.append_reads (s : State) (p : Nat) (v : Int) : (s.append p v).reads = s.reads := rfl
@[simp] theorem State.append_draws (s : State) (p : Nat) (v : Int) : (s.append p v).draws = s.draws := rfl
@[simp] theorem State.append_acTableOne (s : State) (p : Nat) (v : Int) : (s.append p v).acTableOne = s.acTableOne := rfl

/-! ### toggleLast -/

@[simp] theorem State.toggleLast_result (s : State) : (s.toggleLast).result = s.result := rfl
@[simp] theorem State.toggleLast_bsBase (s : State) : (s.toggleLast).bsBase = s.bsBase := rfl
@[simp] theorem State.toggleLast_bsLen (s : State) : (s.toggleLast).bsLen = s.bsLen := rfl
@[simp] theorem State.toggleLast_bsOffset (s : State) : (s.toggleLast).bsOffset = s.bsOffset := rfl
@[simp] theorem State.toggleLast_cfg (s : State) : (s.toggleLast).cfg = s.cfg := rfl
@[simp] theorem State.toggleLast_vertSize (s : State) : (s.toggleLast).vertSize = s.vertSize := rfl
@[simp] theorem State.toggleLast_mbRows (s : State) : (s.toggleLast).mbRows = s.mbRows := rfl
@[simp] theorem State.toggleLast_qscale (s : State) : (s.toggleLast).qscale = s.qscale := rfl
@[simp] theorem State.toggleLast_mbX (s : State) : (s.toggleLast).mbX = s.mbX := rfl
@[simp] theorem State.toggleLast_mbY (s : State) : (s.toggleLast).mbY = s.mbY := rfl
@[simp] theorem State.toggleLast_dcY (s : State) : (s.toggleLast).dcY = s.dcY := rfl
@[simp] theorem State.toggleLast_dcCb (s : State) : (s.toggleLast).dcCb = s.dcCb := rfl
@[simp] theorem State.toggleLast_dcCr (s : State) : (s.toggleLast).dcCr = s.dcCr := rfl
@[simp] theorem State.toggleLast_blkCount (s : State) : (s.toggleLast).blkCount = s.blkCount := rfl
@[simp] theorem State.toggleLast_rowMask (s : State) : (s.toggleLast).rowMask = s.rowMask ||| 0x80 := rfl
@[simp] theorem State.toggleLast_colMask (s : State) : (s.toggleLast).colMask = s.colMask ||| 0x80 := rfl
@[simp] theorem State.toggleLast_list (s : State) : (s.toggleLast).list = s.list.setIfInBounds s.lastIndex ⟨(s.entry s.lastIndex).value ^^^ 1, (s.entry s.lastIndex).pos⟩ := rfl
@[simp] theorem State.toggleLast_qmIntra (s : State) : (s.toggleLast).qmIntra = s.qmIntra := rfl
@[simp] theorem State.toggleLast_qmInter (s : State) : (s.toggleLast).qmInter = s.qmInter := rfl
@[simp] theorem State.toggleLast_done (s : State) : (s.toggleLast).done = s.done := rfl
@[simp] theorem State.toggleLast_found (s : State) : (s.toggleLast).found = s.found := rfl
@[simp] theorem State.toggleLast_overrun (s : State) : (s.toggleLast).overrun = s.overrun := rfl
@[simp] theorem State.toggleLast_cmdErr (s : State) : (s.toggleLast).cmdErr = s.cmdErr := rfl
@[simp] theorem State.toggleLast_errCode (s : State) : (s.toggleLast).errCode = s.errCode := rfl
@[simp] theorem State.toggleLast_command (s : State) : (s.toggleLast).command = s.command := rfl
@[simp] theorem State.toggleLast_mem (s : State) : (s.toggleLast).mem = s.mem := rfl
@[simp] theorem State.toggleLast_stuck (s : State) : (s.toggleLast).stuck = s.stuck := rfl
@[simp] theorem State.toggleLast_earlier (s : State) : (s.toggleLast).earlier = s.earlier := rfl
@[simp] theorem State.toggleLast_turn (s : State) : (s.toggleLast).turn = s.turn := rfl
@[simp] theorem State.toggleLast_agenda (s : State) : (s.toggleLast).agenda = s.agenda := rfl
@[simp] theorem State.toggleLast_reads (s : State) : (s.toggleLast).reads = s.reads := rfl
@[simp] theorem State.toggleLast_draws (s : State) : (s.toggleLast).draws = s.draws := rfl
@[simp] theorem State.toggleLast_acTableOne (s : State) : (s.toggleLast).acTableOne = s.acTableOne := rfl

/-! ### complete -/

@[simp] theorem State.complete_result (s : State) (c : ResultCode) : (s.complete c).result = s.result := rfl
@[simp] theorem State.complete_bsBase (s : State) (c : ResultCode) : (s.complete c).bsBase = s.bsBase := rfl
@[simp] theorem State.complete_bsLen (s : State) (c : ResultCode) : (s.complete c).bsLen = s.bsLen := rfl
@[simp] theorem State.complete_bsOffset (s : State) (c : ResultCode) : (s.complete c).bsOffset = s.bsOffset := rfl
@[simp] theorem State.complete_cfg (s : State) (c : ResultCode) : (s.complete c).cfg = s.cfg := rfl
@[simp] theorem State.complete_vertSize (s : State) (c : ResultCode) : (s.complete c).vertSize = s.vertSize := rfl
@[simp] theorem State.complete_mbRows (s : State) (c : ResultCode) : (s.complete c).mbRows = s.mbRows := rfl
@[simp] theorem State.complete_qscale (s : State) (c : ResultCode) : (s.complete c).qscale = s.qscale := rfl
@[simp] theorem State.complete_mbX (s : State) (c : ResultCode) : (s.complete c).mbX = s.mbX := rfl
@[simp] theorem State.complete_mbY (s : State) (c : ResultCode) : (s.complete c).mbY = s.mbY := rfl
@[simp] theorem State.complete_dcY (s : State) (c : ResultCode) : (s.complete c).dcY = s.dcY := rfl
@[simp] theorem State.complete_dcCb (s : State) (c : ResultCode) : (s.complete c).dcCb = s.dcCb := rfl
@[simp] theorem State.complete_dcCr (s : State) (c : ResultCode) : (s.complete c).dcCr = s.dcCr := rfl
@[simp] theorem State.complete_blkCount (s : State) (c : ResultCode) : (s.complete c).blkCount = s.blkCount := rfl
@[simp] theorem State.complete_rowMask (s : State) (c : ResultCode) : (s.complete c).rowMask = s.rowMask := rfl
@[simp] theorem State.complete_colMask (s : State) (c : ResultCode) : (s.complete c).colMask = s.colMask := rfl
@[simp] theorem State.complete_list (s : State) (c : ResultCode) : (s.complete c).list = s.list := rfl
@[simp] theorem State.complete_qmIntra (s : State) (c : ResultCode) : (s.complete c).qmIntra = s.qmIntra := rfl
@[simp] theorem State.complete_qmInter (s : State) (c : ResultCode) : (s.complete c).qmInter = s.qmInter := rfl
@[simp] theorem State.complete_done (s : State) (c : ResultCode) : (s.complete c).done = true := rfl
@[simp] theorem State.complete_found (s : State) (c : ResultCode) : (s.complete c).found = s.found := rfl
@[simp] theorem State.complete_overrun (s : State) (c : ResultCode) : (s.complete c).overrun = s.overrun := rfl
@[simp] theorem State.complete_cmdErr (s : State) (c : ResultCode) : (s.complete c).cmdErr = s.cmdErr := rfl
@[simp] theorem State.complete_errCode (s : State) (c : ResultCode) : (s.complete c).errCode = c := rfl
@[simp] theorem State.complete_command (s : State) (c : ResultCode) : (s.complete c).command = none := rfl
@[simp] theorem State.complete_mem (s : State) (c : ResultCode) : (s.complete c).mem = s.mem := rfl
@[simp] theorem State.complete_stuck (s : State) (c : ResultCode) : (s.complete c).stuck = false := rfl
@[simp] theorem State.complete_earlier (s : State) (c : ResultCode) : (s.complete c).earlier = [] := rfl
@[simp] theorem State.complete_turn (s : State) (c : ResultCode) : (s.complete c).turn = .host := rfl
@[simp] theorem State.complete_agenda (s : State) (c : ResultCode) : (s.complete c).agenda = s.agenda := rfl
@[simp] theorem State.complete_reads (s : State) (c : ResultCode) : (s.complete c).reads = s.reads := rfl
@[simp] theorem State.complete_draws (s : State) (c : ResultCode) : (s.complete c).draws = s.draws + 1 := rfl
@[simp] theorem State.complete_acTableOne (s : State) (c : ResultCode) : (s.complete c).acTableOne = s.acTableOne := rfl

/-! ### hang -/

@[simp] theorem State.hang_result (s : State) : (s.hang).result = s.result := rfl
@[simp] theorem State.hang_bsBase (s : State) : (s.hang).bsBase = s.bsBase := rfl
@[simp] theorem State.hang_bsLen (s : State) : (s.hang).bsLen = s.bsLen := rfl
@[simp] theorem State.hang_bsOffset (s : State) : (s.hang).bsOffset = s.bsOffset := rfl
@[simp] theorem State.hang_cfg (s : State) : (s.hang).cfg = s.cfg := rfl
@[simp] theorem State.hang_vertSize (s : State) : (s.hang).vertSize = s.vertSize := rfl
@[simp] theorem State.hang_mbRows (s : State) : (s.hang).mbRows = s.mbRows := rfl
@[simp] theorem State.hang_qscale (s : State) : (s.hang).qscale = s.qscale := rfl
@[simp] theorem State.hang_mbX (s : State) : (s.hang).mbX = s.mbX := rfl
@[simp] theorem State.hang_mbY (s : State) : (s.hang).mbY = s.mbY := rfl
@[simp] theorem State.hang_dcY (s : State) : (s.hang).dcY = s.dcY := rfl
@[simp] theorem State.hang_dcCb (s : State) : (s.hang).dcCb = s.dcCb := rfl
@[simp] theorem State.hang_dcCr (s : State) : (s.hang).dcCr = s.dcCr := rfl
@[simp] theorem State.hang_blkCount (s : State) : (s.hang).blkCount = s.blkCount := rfl
@[simp] theorem State.hang_rowMask (s : State) : (s.hang).rowMask = s.rowMask := rfl
@[simp] theorem State.hang_colMask (s : State) : (s.hang).colMask = s.colMask := rfl
@[simp] theorem State.hang_list (s : State) : (s.hang).list = s.list := rfl
@[simp] theorem State.hang_qmIntra (s : State) : (s.hang).qmIntra = s.qmIntra := rfl
@[simp] theorem State.hang_qmInter (s : State) : (s.hang).qmInter = s.qmInter := rfl
@[simp] theorem State.hang_done (s : State) : (s.hang).done = s.done := rfl
@[simp] theorem State.hang_found (s : State) : (s.hang).found = s.found := rfl
@[simp] theorem State.hang_overrun (s : State) : (s.hang).overrun = s.overrun := rfl
@[simp] theorem State.hang_cmdErr (s : State) : (s.hang).cmdErr = s.cmdErr := rfl
@[simp] theorem State.hang_errCode (s : State) : (s.hang).errCode = s.errCode := rfl
@[simp] theorem State.hang_command (s : State) : (s.hang).command = s.command := rfl
@[simp] theorem State.hang_mem (s : State) : (s.hang).mem = s.mem := rfl
@[simp] theorem State.hang_stuck (s : State) : (s.hang).stuck = true := rfl
@[simp] theorem State.hang_earlier (s : State) : (s.hang).earlier = s.earlier := rfl
@[simp] theorem State.hang_turn (s : State) : (s.hang).turn = .host := rfl
@[simp] theorem State.hang_agenda (s : State) : (s.hang).agenda = s.agenda := rfl
@[simp] theorem State.hang_reads (s : State) : (s.hang).reads = s.reads := rfl
@[simp] theorem State.doReset_command (s : State) : (s.doReset).command = none := rfl
@[simp] theorem State.doReset_mem (s : State) : (s.doReset).mem = s.mem := rfl
@[simp] theorem State.doReset_stuck (s : State) : (s.doReset).stuck = false := rfl
@[simp] theorem State.doReset_earlier (s : State) : (s.doReset).earlier = [] := rfl
@[simp] theorem State.doReset_turn (s : State) : (s.doReset).turn = .host := rfl
@[simp] theorem State.doReset_agenda (s : State) : (s.doReset).agenda = s.agenda := rfl
@[simp] theorem State.doReset_reads (s : State) : (s.doReset).reads = s.reads := rfl
@[simp] theorem State.doReset_draws (s : State) : (s.doReset).draws = s.draws + 1 := rfl
@[simp] theorem State.doReset_acTableOne (s : State) : (s.doReset).acTableOne = s.acTableOne := rfl
@[simp] theorem State.hang_draws (s : State) : (s.hang).draws = s.draws := rfl
@[simp] theorem State.hang_acTableOne (s : State) : (s.hang).acTableOne = s.acTableOne := rfl

/-! ### align -/

@[simp] theorem State.align_result (s : State) : (s.align).result = s.result := by unfold State.align; split <;> rfl
@[simp] theorem State.align_bsBase (s : State) : (s.align).bsBase = s.bsBase := by unfold State.align; split <;> rfl
@[simp] theorem State.align_bsLen (s : State) : (s.align).bsLen = s.bsLen := by unfold State.align; split <;> rfl
@[simp] theorem State.align_cfg (s : State) : (s.align).cfg = s.cfg := by unfold State.align; split <;> rfl
@[simp] theorem State.align_vertSize (s : State) : (s.align).vertSize = s.vertSize := by unfold State.align; split <;> rfl
@[simp] theorem State.align_mbRows (s : State) : (s.align).mbRows = s.mbRows := by unfold State.align; split <;> rfl
@[simp] theorem State.align_qscale (s : State) : (s.align).qscale = s.qscale := by unfold State.align; split <;> rfl
@[simp] theorem State.align_mbX (s : State) : (s.align).mbX = s.mbX := by unfold State.align; split <;> rfl
@[simp] theorem State.align_mbY (s : State) : (s.align).mbY = s.mbY := by unfold State.align; split <;> rfl
@[simp] theorem State.align_dcY (s : State) : (s.align).dcY = s.dcY := by unfold State.align; split <;> rfl
@[simp] theorem State.align_dcCb (s : State) : (s.align).dcCb = s.dcCb := by unfold State.align; split <;> rfl
@[simp] theorem State.align_dcCr (s : State) : (s.align).dcCr = s.dcCr := by unfold State.align; split <;> rfl
@[simp] theorem State.align_blkCount (s : State) : (s.align).blkCount = s.blkCount := by unfold State.align; split <;> rfl
@[simp] theorem State.align_rowMask (s : State) : (s.align).rowMask = s.rowMask := by unfold State.align; split <;> rfl
@[simp] theorem State.align_colMask (s : State) : (s.align).colMask = s.colMask := by unfold State.align; split <;> rfl
@[simp] theorem State.align_list (s : State) : (s.align).list = s.list := by unfold State.align; split <;> rfl
@[simp] theorem State.align_qmIntra (s : State) : (s.align).qmIntra = s.qmIntra := by unfold State.align; split <;> rfl
@[simp] theorem State.align_qmInter (s : State) : (s.align).qmInter = s.qmInter := by unfold State.align; split <;> rfl
@[simp] theorem State.align_done (s : State) : (s.align).done = s.done := by unfold State.align; split <;> rfl
@[simp] theorem State.align_found (s : State) : (s.align).found = s.found := by unfold State.align; split <;> rfl
@[simp] theorem State.align_cmdErr (s : State) : (s.align).cmdErr = s.cmdErr := by unfold State.align; split <;> rfl
@[simp] theorem State.align_errCode (s : State) : (s.align).errCode = s.errCode := by unfold State.align; split <;> rfl
@[simp] theorem State.align_command (s : State) : (s.align).command = s.command := by unfold State.align; split <;> rfl
@[simp] theorem State.align_mem (s : State) : (s.align).mem = s.mem := by unfold State.align; split <;> rfl
@[simp] theorem State.align_stuck (s : State) : (s.align).stuck = s.stuck := by unfold State.align; split <;> rfl
@[simp] theorem State.align_earlier (s : State) : (s.align).earlier = s.earlier := by unfold State.align; split <;> rfl
@[simp] theorem State.align_turn (s : State) : (s.align).turn = s.turn := by unfold State.align; split <;> rfl
@[simp] theorem State.align_agenda (s : State) : (s.align).agenda = s.agenda := by unfold State.align; split <;> rfl
@[simp] theorem State.align_reads (s : State) : (s.align).reads = s.reads := by unfold State.align; split <;> rfl
@[simp] theorem State.align_draws (s : State) : (s.align).draws = s.draws := by unfold State.align; split <;> rfl
@[simp] theorem State.align_acTableOne (s : State) : (s.align).acTableOne = s.acTableOne := by unfold State.align; split <;> rfl

/-! ### enterRow -/

@[simp] theorem State.enterRow_result (s : State) (r : Nat) : (s.enterRow r).result = s.result := by unfold State.enterRow; split <;> rfl
@[simp] theorem State.enterRow_bsBase (s : State) (r : Nat) : (s.enterRow r).bsBase = s.bsBase := by unfold State.enterRow; split <;> rfl
@[simp] theorem State.enterRow_bsLen (s : State) (r : Nat) : (s.enterRow r).bsLen = s.bsLen := by unfold State.enterRow; split <;> rfl
@[simp] theorem State.enterRow_bsOffset (s : State) (r : Nat) : (s.enterRow r).bsOffset = s.bsOffset := by unfold State.enterRow; split <;> rfl
@[simp] theorem State.enterRow_cfg (s : State) (r : Nat) : (s.enterRow r).cfg = s.cfg := by unfold State.enterRow; split <;> rfl
@[simp] theorem State.enterRow_vertSize (s : State) (r : Nat) : (s.enterRow r).vertSize = s.vertSize := by unfold State.enterRow; split <;> rfl
@[simp] theorem State.enterRow_mbRows (s : State) (r : Nat) : (s.enterRow r).mbRows = s.mbRows := by unfold State.enterRow; split <;> rfl
@[simp] theorem State.enterRow_qscale (s : State) (r : Nat) : (s.enterRow r).qscale = s.qscale := by unfold State.enterRow; split <;> rfl
@[simp] theorem State.enterRow_dcY (s : State) (r : Nat) : (s.enterRow r).dcY = s.dcY := by unfold State.enterRow; split <;> rfl
@[simp] theorem State.enterRow_dcCb (s : State) (r : Nat) : (s.enterRow r).dcCb = s.dcCb := by unfold State.enterRow; split <;> rfl
@[simp] theorem State.enterRow_dcCr (s : State) (r : Nat) : (s.enterRow r).dcCr = s.dcCr := by unfold State.enterRow; split <;> rfl
@[simp] theorem State.enterRow_blkCount (s : State) (r : Nat) : (s.enterRow r).blkCount = s.blkCount := by unfold State.enterRow; split <;> rfl
@[simp] theorem State.enterRow_rowMask (s : State) (r : Nat) : (s.enterRow r).rowMask = s.rowMask := by unfold State.enterRow; split <;> rfl
@[simp] theorem State.enterRow_colMask (s : State) (r : Nat) : (s.enterRow r).colMask = s.colMask := by unfold State.enterRow; split <;> rfl
@[simp] theorem State.enterRow_list (s : State) (r : Nat) : (s.enterRow r).list = s.list := by unfold State.enterRow; split <;> rfl
@[simp] theorem State.enterRow_qmIntra (s : State) (r : Nat) : (s.enterRow r).qmIntra = s.qmIntra := by unfold State.enterRow; split <;> rfl
@[simp] theorem State.enterRow_qmInter (s : State) (r : Nat) : (s.enterRow r).qmInter = s.qmInter := by unfold State.enterRow; split <;> rfl
@[simp] theorem State.enterRow_done (s : State) (r : Nat) : (s.enterRow r).done = s.done := by unfold State.enterRow; split <;> rfl
@[simp] theorem State.enterRow_found (s : State) (r : Nat) : (s.enterRow r).found = s.found := by unfold State.enterRow; split <;> rfl
@[simp] theorem State.enterRow_overrun (s : State) (r : Nat) : (s.enterRow r).overrun = s.overrun := by unfold State.enterRow; split <;> rfl
@[simp] theorem State.enterRow_cmdErr (s : State) (r : Nat) : (s.enterRow r).cmdErr = s.cmdErr := by unfold State.enterRow; split <;> rfl
@[simp] theorem State.enterRow_errCode (s : State) (r : Nat) : (s.enterRow r).errCode = s.errCode := by unfold State.enterRow; split <;> rfl
@[simp] theorem State.enterRow_command (s : State) (r : Nat) : (s.enterRow r).command = s.command := by unfold State.enterRow; split <;> rfl
@[simp] theorem State.enterRow_mem (s : State) (r : Nat) : (s.enterRow r).mem = s.mem := by unfold State.enterRow; split <;> rfl
@[simp] theorem State.enterRow_stuck (s : State) (r : Nat) : (s.enterRow r).stuck = s.stuck := by unfold State.enterRow; split <;> rfl
@[simp] theorem State.enterRow_earlier (s : State) (r : Nat) : (s.enterRow r).earlier = s.earlier := by unfold State.enterRow; split <;> rfl
@[simp] theorem State.enterRow_turn (s : State) (r : Nat) : (s.enterRow r).turn = s.turn := by unfold State.enterRow; split <;> rfl
@[simp] theorem State.enterRow_agenda (s : State) (r : Nat) : (s.enterRow r).agenda = s.agenda := by unfold State.enterRow; split <;> rfl
@[simp] theorem State.enterRow_reads (s : State) (r : Nat) : (s.enterRow r).reads = s.reads := by unfold State.enterRow; split <;> rfl
@[simp] theorem State.enterRow_draws (s : State) (r : Nat) : (s.enterRow r).draws = s.draws := by unfold State.enterRow; split <;> rfl
@[simp] theorem State.enterRow_acTableOne (s : State) (r : Nat) : (s.enterRow r).acTableOne = s.acTableOne := by unfold State.enterRow; split <;> rfl

/-! ### setDcPred -/

@[simp] theorem State.setDcPred_result (s : State) (c : Component) (v : BitVec 16) : (s.setDcPred c v).result = s.result := by cases c <;> rfl
@[simp] theorem State.setDcPred_bsBase (s : State) (c : Component) (v : BitVec 16) : (s.setDcPred c v).bsBase = s.bsBase := by cases c <;> rfl
@[simp] theorem State.setDcPred_bsLen (s : State) (c : Component) (v : BitVec 16) : (s.setDcPred c v).bsLen = s.bsLen := by cases c <;> rfl
@[simp] theorem State.setDcPred_bsOffset (s : State) (c : Component) (v : BitVec 16) : (s.setDcPred c v).bsOffset = s.bsOffset := by cases c <;> rfl
@[simp] theorem State.setDcPred_cfg (s : State) (c : Component) (v : BitVec 16) : (s.setDcPred c v).cfg = s.cfg := by cases c <;> rfl
@[simp] theorem State.setDcPred_vertSize (s : State) (c : Component) (v : BitVec 16) : (s.setDcPred c v).vertSize = s.vertSize := by cases c <;> rfl
@[simp] theorem State.setDcPred_mbRows (s : State) (c : Component) (v : BitVec 16) : (s.setDcPred c v).mbRows = s.mbRows := by cases c <;> rfl
@[simp] theorem State.setDcPred_qscale (s : State) (c : Component) (v : BitVec 16) : (s.setDcPred c v).qscale = s.qscale := by cases c <;> rfl
@[simp] theorem State.setDcPred_mbX (s : State) (c : Component) (v : BitVec 16) : (s.setDcPred c v).mbX = s.mbX := by cases c <;> rfl
@[simp] theorem State.setDcPred_mbY (s : State) (c : Component) (v : BitVec 16) : (s.setDcPred c v).mbY = s.mbY := by cases c <;> rfl
@[simp] theorem State.setDcPred_blkCount (s : State) (c : Component) (v : BitVec 16) : (s.setDcPred c v).blkCount = s.blkCount := by cases c <;> rfl
@[simp] theorem State.setDcPred_rowMask (s : State) (c : Component) (v : BitVec 16) : (s.setDcPred c v).rowMask = s.rowMask := by cases c <;> rfl
@[simp] theorem State.setDcPred_colMask (s : State) (c : Component) (v : BitVec 16) : (s.setDcPred c v).colMask = s.colMask := by cases c <;> rfl
@[simp] theorem State.setDcPred_list (s : State) (c : Component) (v : BitVec 16) : (s.setDcPred c v).list = s.list := by cases c <;> rfl
@[simp] theorem State.setDcPred_qmIntra (s : State) (c : Component) (v : BitVec 16) : (s.setDcPred c v).qmIntra = s.qmIntra := by cases c <;> rfl
@[simp] theorem State.setDcPred_qmInter (s : State) (c : Component) (v : BitVec 16) : (s.setDcPred c v).qmInter = s.qmInter := by cases c <;> rfl
@[simp] theorem State.setDcPred_done (s : State) (c : Component) (v : BitVec 16) : (s.setDcPred c v).done = s.done := by cases c <;> rfl
@[simp] theorem State.setDcPred_found (s : State) (c : Component) (v : BitVec 16) : (s.setDcPred c v).found = s.found := by cases c <;> rfl
@[simp] theorem State.setDcPred_overrun (s : State) (c : Component) (v : BitVec 16) : (s.setDcPred c v).overrun = s.overrun := by cases c <;> rfl
@[simp] theorem State.setDcPred_cmdErr (s : State) (c : Component) (v : BitVec 16) : (s.setDcPred c v).cmdErr = s.cmdErr := by cases c <;> rfl
@[simp] theorem State.setDcPred_errCode (s : State) (c : Component) (v : BitVec 16) : (s.setDcPred c v).errCode = s.errCode := by cases c <;> rfl
@[simp] theorem State.setDcPred_command (s : State) (c : Component) (v : BitVec 16) : (s.setDcPred c v).command = s.command := by cases c <;> rfl
@[simp] theorem State.setDcPred_mem (s : State) (c : Component) (v : BitVec 16) : (s.setDcPred c v).mem = s.mem := by cases c <;> rfl
@[simp] theorem State.setDcPred_stuck (s : State) (c : Component) (v : BitVec 16) : (s.setDcPred c v).stuck = s.stuck := by cases c <;> rfl
@[simp] theorem State.setDcPred_earlier (s : State) (c : Component) (v : BitVec 16) : (s.setDcPred c v).earlier = s.earlier := by cases c <;> rfl
@[simp] theorem State.setDcPred_turn (s : State) (c : Component) (v : BitVec 16) : (s.setDcPred c v).turn = s.turn := by cases c <;> rfl
@[simp] theorem State.setDcPred_agenda (s : State) (c : Component) (v : BitVec 16) : (s.setDcPred c v).agenda = s.agenda := by cases c <;> rfl
@[simp] theorem State.setDcPred_reads (s : State) (c : Component) (v : BitVec 16) : (s.setDcPred c v).reads = s.reads := by cases c <;> rfl
@[simp] theorem State.setDcPred_draws (s : State) (c : Component) (v : BitVec 16) : (s.setDcPred c v).draws = s.draws := by cases c <;> rfl
@[simp] theorem State.setDcPred_acTableOne (s : State) (c : Component) (v : BitVec 16) : (s.setDcPred c v).acTableOne = s.acTableOne := by cases c <;> rfl

/-! ### setMatrix -/

@[simp] theorem State.setMatrix_result (s : State) (m : WeightSel) (q : Vector Byte 64) : (s.setMatrix m q).result = s.result := by cases m <;> rfl
@[simp] theorem State.setMatrix_bsBase (s : State) (m : WeightSel) (q : Vector Byte 64) : (s.setMatrix m q).bsBase = s.bsBase := by cases m <;> rfl
@[simp] theorem State.setMatrix_bsLen (s : State) (m : WeightSel) (q : Vector Byte 64) : (s.setMatrix m q).bsLen = s.bsLen := by cases m <;> rfl
@[simp] theorem State.setMatrix_bsOffset (s : State) (m : WeightSel) (q : Vector Byte 64) : (s.setMatrix m q).bsOffset = s.bsOffset := by cases m <;> rfl
@[simp] theorem State.setMatrix_cfg (s : State) (m : WeightSel) (q : Vector Byte 64) : (s.setMatrix m q).cfg = s.cfg := by cases m <;> rfl
@[simp] theorem State.setMatrix_vertSize (s : State) (m : WeightSel) (q : Vector Byte 64) : (s.setMatrix m q).vertSize = s.vertSize := by cases m <;> rfl
@[simp] theorem State.setMatrix_mbRows (s : State) (m : WeightSel) (q : Vector Byte 64) : (s.setMatrix m q).mbRows = s.mbRows := by cases m <;> rfl
@[simp] theorem State.setMatrix_qscale (s : State) (m : WeightSel) (q : Vector Byte 64) : (s.setMatrix m q).qscale = s.qscale := by cases m <;> rfl
@[simp] theorem State.setMatrix_mbX (s : State) (m : WeightSel) (q : Vector Byte 64) : (s.setMatrix m q).mbX = s.mbX := by cases m <;> rfl
@[simp] theorem State.setMatrix_mbY (s : State) (m : WeightSel) (q : Vector Byte 64) : (s.setMatrix m q).mbY = s.mbY := by cases m <;> rfl
@[simp] theorem State.setMatrix_dcY (s : State) (m : WeightSel) (q : Vector Byte 64) : (s.setMatrix m q).dcY = s.dcY := by cases m <;> rfl
@[simp] theorem State.setMatrix_dcCb (s : State) (m : WeightSel) (q : Vector Byte 64) : (s.setMatrix m q).dcCb = s.dcCb := by cases m <;> rfl
@[simp] theorem State.setMatrix_dcCr (s : State) (m : WeightSel) (q : Vector Byte 64) : (s.setMatrix m q).dcCr = s.dcCr := by cases m <;> rfl
@[simp] theorem State.setMatrix_blkCount (s : State) (m : WeightSel) (q : Vector Byte 64) : (s.setMatrix m q).blkCount = s.blkCount := by cases m <;> rfl
@[simp] theorem State.setMatrix_rowMask (s : State) (m : WeightSel) (q : Vector Byte 64) : (s.setMatrix m q).rowMask = s.rowMask := by cases m <;> rfl
@[simp] theorem State.setMatrix_colMask (s : State) (m : WeightSel) (q : Vector Byte 64) : (s.setMatrix m q).colMask = s.colMask := by cases m <;> rfl
@[simp] theorem State.setMatrix_list (s : State) (m : WeightSel) (q : Vector Byte 64) : (s.setMatrix m q).list = s.list := by cases m <;> rfl
@[simp] theorem State.setMatrix_done (s : State) (m : WeightSel) (q : Vector Byte 64) : (s.setMatrix m q).done = s.done := by cases m <;> rfl
@[simp] theorem State.setMatrix_found (s : State) (m : WeightSel) (q : Vector Byte 64) : (s.setMatrix m q).found = s.found := by cases m <;> rfl
@[simp] theorem State.setMatrix_overrun (s : State) (m : WeightSel) (q : Vector Byte 64) : (s.setMatrix m q).overrun = s.overrun := by cases m <;> rfl
@[simp] theorem State.setMatrix_cmdErr (s : State) (m : WeightSel) (q : Vector Byte 64) : (s.setMatrix m q).cmdErr = s.cmdErr := by cases m <;> rfl
@[simp] theorem State.setMatrix_errCode (s : State) (m : WeightSel) (q : Vector Byte 64) : (s.setMatrix m q).errCode = s.errCode := by cases m <;> rfl
@[simp] theorem State.setMatrix_command (s : State) (m : WeightSel) (q : Vector Byte 64) : (s.setMatrix m q).command = s.command := by cases m <;> rfl
@[simp] theorem State.setMatrix_mem (s : State) (m : WeightSel) (q : Vector Byte 64) : (s.setMatrix m q).mem = s.mem := by cases m <;> rfl
@[simp] theorem State.setMatrix_stuck (s : State) (m : WeightSel) (q : Vector Byte 64) : (s.setMatrix m q).stuck = s.stuck := by cases m <;> rfl
@[simp] theorem State.setMatrix_earlier (s : State) (m : WeightSel) (q : Vector Byte 64) : (s.setMatrix m q).earlier = s.earlier := by cases m <;> rfl
@[simp] theorem State.setMatrix_turn (s : State) (m : WeightSel) (q : Vector Byte 64) : (s.setMatrix m q).turn = s.turn := by cases m <;> rfl
@[simp] theorem State.setMatrix_agenda (s : State) (m : WeightSel) (q : Vector Byte 64) : (s.setMatrix m q).agenda = s.agenda := by cases m <;> rfl
@[simp] theorem State.setMatrix_reads (s : State) (m : WeightSel) (q : Vector Byte 64) : (s.setMatrix m q).reads = s.reads := by cases m <;> rfl
@[simp] theorem State.setMatrix_draws (s : State) (m : WeightSel) (q : Vector Byte 64) : (s.setMatrix m q).draws = s.draws := by cases m <;> rfl
@[simp] theorem State.setMatrix_acTableOne (s : State) (m : WeightSel) (q : Vector Byte 64) : (s.setMatrix m q).acTableOne = s.acTableOne := by cases m <;> rfl

/-! ### hostRead -/

@[simp] theorem State.hostRead_result (s : State) (o : BitVec 10) : (s.hostRead o).result = s.result := rfl
@[simp] theorem State.hostRead_bsBase (s : State) (o : BitVec 10) : (s.hostRead o).bsBase = s.bsBase := rfl
@[simp] theorem State.hostRead_bsLen (s : State) (o : BitVec 10) : (s.hostRead o).bsLen = s.bsLen := rfl
@[simp] theorem State.hostRead_bsOffset (s : State) (o : BitVec 10) : (s.hostRead o).bsOffset = s.bsOffset := rfl
@[simp] theorem State.hostRead_cfg (s : State) (o : BitVec 10) : (s.hostRead o).cfg = s.cfg := rfl
@[simp] theorem State.hostRead_vertSize (s : State) (o : BitVec 10) : (s.hostRead o).vertSize = s.vertSize := rfl
@[simp] theorem State.hostRead_mbRows (s : State) (o : BitVec 10) : (s.hostRead o).mbRows = s.mbRows := rfl
@[simp] theorem State.hostRead_qscale (s : State) (o : BitVec 10) : (s.hostRead o).qscale = s.qscale := rfl
@[simp] theorem State.hostRead_mbX (s : State) (o : BitVec 10) : (s.hostRead o).mbX = s.mbX := rfl
@[simp] theorem State.hostRead_mbY (s : State) (o : BitVec 10) : (s.hostRead o).mbY = s.mbY := rfl
@[simp] theorem State.hostRead_dcY (s : State) (o : BitVec 10) : (s.hostRead o).dcY = s.dcY := rfl
@[simp] theorem State.hostRead_dcCb (s : State) (o : BitVec 10) : (s.hostRead o).dcCb = s.dcCb := rfl
@[simp] theorem State.hostRead_dcCr (s : State) (o : BitVec 10) : (s.hostRead o).dcCr = s.dcCr := rfl
@[simp] theorem State.hostRead_blkCount (s : State) (o : BitVec 10) : (s.hostRead o).blkCount = s.blkCount := rfl
@[simp] theorem State.hostRead_rowMask (s : State) (o : BitVec 10) : (s.hostRead o).rowMask = s.rowMask := rfl
@[simp] theorem State.hostRead_colMask (s : State) (o : BitVec 10) : (s.hostRead o).colMask = s.colMask := rfl
@[simp] theorem State.hostRead_list (s : State) (o : BitVec 10) : (s.hostRead o).list = s.list := rfl
@[simp] theorem State.hostRead_qmIntra (s : State) (o : BitVec 10) : (s.hostRead o).qmIntra = s.qmIntra := rfl
@[simp] theorem State.hostRead_qmInter (s : State) (o : BitVec 10) : (s.hostRead o).qmInter = s.qmInter := rfl
@[simp] theorem State.hostRead_done (s : State) (o : BitVec 10) : (s.hostRead o).done = s.done := rfl
@[simp] theorem State.hostRead_found (s : State) (o : BitVec 10) : (s.hostRead o).found = s.found := rfl
@[simp] theorem State.hostRead_overrun (s : State) (o : BitVec 10) : (s.hostRead o).overrun = s.overrun := rfl
@[simp] theorem State.hostRead_cmdErr (s : State) (o : BitVec 10) : (s.hostRead o).cmdErr = s.cmdErr := rfl
@[simp] theorem State.hostRead_errCode (s : State) (o : BitVec 10) : (s.hostRead o).errCode = s.errCode := rfl
@[simp] theorem State.hostRead_command (s : State) (o : BitVec 10) : (s.hostRead o).command = s.command := rfl
@[simp] theorem State.hostRead_mem (s : State) (o : BitVec 10) : (s.hostRead o).mem = s.mem := rfl
@[simp] theorem State.hostRead_stuck (s : State) (o : BitVec 10) : (s.hostRead o).stuck = s.stuck := rfl
@[simp] theorem State.hostRead_earlier (s : State) (o : BitVec 10) : (s.hostRead o).earlier = s.earlier := rfl
@[simp] theorem State.hostRead_turn (s : State) (o : BitVec 10) : (s.hostRead o).turn = s.turn := rfl
@[simp] theorem State.hostRead_agenda (s : State) (o : BitVec 10) : (s.hostRead o).agenda = s.agenda := rfl
@[simp] theorem State.hostRead_reads (s : State) (o : BitVec 10) : (s.hostRead o).reads = s.readOffset o :: s.reads := rfl
@[simp] theorem State.hostRead_draws (s : State) (o : BitVec 10) : (s.hostRead o).draws = s.draws + 1 := rfl
@[simp] theorem State.hostRead_acTableOne (s : State) (o : BitVec 10) : (s.hostRead o).acTableOne = s.acTableOne := rfl

/-! ### hostStore -/

@[simp] theorem State.hostStore_result (s : State) (a : Word) (b : Byte) : (s.hostStore a b).result = s.result := rfl
@[simp] theorem State.hostStore_bsBase (s : State) (a : Word) (b : Byte) : (s.hostStore a b).bsBase = s.bsBase := rfl
@[simp] theorem State.hostStore_bsLen (s : State) (a : Word) (b : Byte) : (s.hostStore a b).bsLen = s.bsLen := rfl
@[simp] theorem State.hostStore_bsOffset (s : State) (a : Word) (b : Byte) : (s.hostStore a b).bsOffset = s.bsOffset := rfl
@[simp] theorem State.hostStore_cfg (s : State) (a : Word) (b : Byte) : (s.hostStore a b).cfg = s.cfg := rfl
@[simp] theorem State.hostStore_vertSize (s : State) (a : Word) (b : Byte) : (s.hostStore a b).vertSize = s.vertSize := rfl
@[simp] theorem State.hostStore_mbRows (s : State) (a : Word) (b : Byte) : (s.hostStore a b).mbRows = s.mbRows := rfl
@[simp] theorem State.hostStore_qscale (s : State) (a : Word) (b : Byte) : (s.hostStore a b).qscale = s.qscale := rfl
@[simp] theorem State.hostStore_mbX (s : State) (a : Word) (b : Byte) : (s.hostStore a b).mbX = s.mbX := rfl
@[simp] theorem State.hostStore_mbY (s : State) (a : Word) (b : Byte) : (s.hostStore a b).mbY = s.mbY := rfl
@[simp] theorem State.hostStore_dcY (s : State) (a : Word) (b : Byte) : (s.hostStore a b).dcY = s.dcY := rfl
@[simp] theorem State.hostStore_dcCb (s : State) (a : Word) (b : Byte) : (s.hostStore a b).dcCb = s.dcCb := rfl
@[simp] theorem State.hostStore_dcCr (s : State) (a : Word) (b : Byte) : (s.hostStore a b).dcCr = s.dcCr := rfl
@[simp] theorem State.hostStore_blkCount (s : State) (a : Word) (b : Byte) : (s.hostStore a b).blkCount = s.blkCount := rfl
@[simp] theorem State.hostStore_rowMask (s : State) (a : Word) (b : Byte) : (s.hostStore a b).rowMask = s.rowMask := rfl
@[simp] theorem State.hostStore_colMask (s : State) (a : Word) (b : Byte) : (s.hostStore a b).colMask = s.colMask := rfl
@[simp] theorem State.hostStore_list (s : State) (a : Word) (b : Byte) : (s.hostStore a b).list = s.list := rfl
@[simp] theorem State.hostStore_qmIntra (s : State) (a : Word) (b : Byte) : (s.hostStore a b).qmIntra = s.qmIntra := rfl
@[simp] theorem State.hostStore_qmInter (s : State) (a : Word) (b : Byte) : (s.hostStore a b).qmInter = s.qmInter := rfl
@[simp] theorem State.hostStore_done (s : State) (a : Word) (b : Byte) : (s.hostStore a b).done = s.done := rfl
@[simp] theorem State.hostStore_found (s : State) (a : Word) (b : Byte) : (s.hostStore a b).found = s.found := rfl
@[simp] theorem State.hostStore_overrun (s : State) (a : Word) (b : Byte) : (s.hostStore a b).overrun = s.overrun := rfl
@[simp] theorem State.hostStore_cmdErr (s : State) (a : Word) (b : Byte) : (s.hostStore a b).cmdErr = s.cmdErr := rfl
@[simp] theorem State.hostStore_errCode (s : State) (a : Word) (b : Byte) : (s.hostStore a b).errCode = s.errCode := rfl
@[simp] theorem State.hostStore_command (s : State) (a : Word) (b : Byte) : (s.hostStore a b).command = s.command := rfl
@[simp] theorem State.hostStore_mem (s : State) (a : Word) (b : Byte) : (s.hostStore a b).mem = Memory.write s.mem a.toNat b := rfl
@[simp] theorem State.hostStore_stuck (s : State) (a : Word) (b : Byte) : (s.hostStore a b).stuck = s.stuck := rfl
@[simp] theorem State.hostStore_earlier (s : State) (a : Word) (b : Byte) : (s.hostStore a b).earlier = if s.busy then (a.toNat, Memory.read s.mem a.toNat) :: s.earlier else s.earlier := rfl
@[simp] theorem State.hostStore_turn (s : State) (a : Word) (b : Byte) : (s.hostStore a b).turn = s.turn := rfl
@[simp] theorem State.hostStore_agenda (s : State) (a : Word) (b : Byte) : (s.hostStore a b).agenda = s.agenda := rfl
@[simp] theorem State.hostStore_reads (s : State) (a : Word) (b : Byte) : (s.hostStore a b).reads = s.reads := rfl
@[simp] theorem State.hostStore_draws (s : State) (a : Word) (b : Byte) : (s.hostStore a b).draws = s.draws := rfl
@[simp] theorem State.hostStore_acTableOne (s : State) (a : Word) (b : Byte) : (s.hostStore a b).acTableOne = s.acTableOne := rfl

/-! ### writeStatus -/

@[simp] theorem State.writeStatus_result (s : State) (v : Word) : (s.writeStatus v).result = s.result := rfl
@[simp] theorem State.writeStatus_bsBase (s : State) (v : Word) : (s.writeStatus v).bsBase = s.bsBase := rfl
@[simp] theorem State.writeStatus_bsLen (s : State) (v : Word) : (s.writeStatus v).bsLen = s.bsLen := rfl
@[simp] theorem State.writeStatus_bsOffset (s : State) (v : Word) : (s.writeStatus v).bsOffset = s.bsOffset := rfl
@[simp] theorem State.writeStatus_cfg (s : State) (v : Word) : (s.writeStatus v).cfg = s.cfg := rfl
@[simp] theorem State.writeStatus_vertSize (s : State) (v : Word) : (s.writeStatus v).vertSize = s.vertSize := rfl
@[simp] theorem State.writeStatus_mbRows (s : State) (v : Word) : (s.writeStatus v).mbRows = s.mbRows := rfl
@[simp] theorem State.writeStatus_qscale (s : State) (v : Word) : (s.writeStatus v).qscale = s.qscale := rfl
@[simp] theorem State.writeStatus_mbX (s : State) (v : Word) : (s.writeStatus v).mbX = s.mbX := rfl
@[simp] theorem State.writeStatus_mbY (s : State) (v : Word) : (s.writeStatus v).mbY = s.mbY := rfl
@[simp] theorem State.writeStatus_dcY (s : State) (v : Word) : (s.writeStatus v).dcY = s.dcY := rfl
@[simp] theorem State.writeStatus_dcCb (s : State) (v : Word) : (s.writeStatus v).dcCb = s.dcCb := rfl
@[simp] theorem State.writeStatus_dcCr (s : State) (v : Word) : (s.writeStatus v).dcCr = s.dcCr := rfl
@[simp] theorem State.writeStatus_blkCount (s : State) (v : Word) : (s.writeStatus v).blkCount = s.blkCount := rfl
@[simp] theorem State.writeStatus_rowMask (s : State) (v : Word) : (s.writeStatus v).rowMask = s.rowMask := rfl
@[simp] theorem State.writeStatus_colMask (s : State) (v : Word) : (s.writeStatus v).colMask = s.colMask := rfl
@[simp] theorem State.writeStatus_list (s : State) (v : Word) : (s.writeStatus v).list = s.list := rfl
@[simp] theorem State.writeStatus_qmIntra (s : State) (v : Word) : (s.writeStatus v).qmIntra = s.qmIntra := rfl
@[simp] theorem State.writeStatus_qmInter (s : State) (v : Word) : (s.writeStatus v).qmInter = s.qmInter := rfl
@[simp] theorem State.writeStatus_done (s : State) (v : Word) : (s.writeStatus v).done = clearedByOne s.done 1 v := rfl
@[simp] theorem State.writeStatus_found (s : State) (v : Word) : (s.writeStatus v).found = s.found := rfl
@[simp] theorem State.writeStatus_overrun (s : State) (v : Word) : (s.writeStatus v).overrun = clearedByOne s.overrun 3 v := rfl
@[simp] theorem State.writeStatus_cmdErr (s : State) (v : Word) : (s.writeStatus v).cmdErr = clearedByOne s.cmdErr 4 v := rfl
@[simp] theorem State.writeStatus_errCode (s : State) (v : Word) : (s.writeStatus v).errCode = s.errCode := rfl
@[simp] theorem State.writeStatus_command (s : State) (v : Word) : (s.writeStatus v).command = s.command := rfl
@[simp] theorem State.writeStatus_mem (s : State) (v : Word) : (s.writeStatus v).mem = s.mem := rfl
@[simp] theorem State.writeStatus_stuck (s : State) (v : Word) : (s.writeStatus v).stuck = s.stuck := rfl
@[simp] theorem State.writeStatus_earlier (s : State) (v : Word) : (s.writeStatus v).earlier = s.earlier := rfl
@[simp] theorem State.writeStatus_turn (s : State) (v : Word) : (s.writeStatus v).turn = s.turn := rfl
@[simp] theorem State.writeStatus_agenda (s : State) (v : Word) : (s.writeStatus v).agenda = s.agenda := rfl
@[simp] theorem State.writeStatus_reads (s : State) (v : Word) : (s.writeStatus v).reads = s.reads := rfl
@[simp] theorem State.writeStatus_draws (s : State) (v : Word) : (s.writeStatus v).draws = s.draws := rfl
@[simp] theorem State.writeStatus_acTableOne (s : State) (v : Word) : (s.writeStatus v).acTableOne = s.acTableOne := rfl

/-! ### startCommand -/

@[simp] theorem State.startCommand_result (s : State) (v : Word) : (s.startCommand v).result = s.result := rfl
@[simp] theorem State.startCommand_bsBase (s : State) (v : Word) : (s.startCommand v).bsBase = s.bsBase := rfl
@[simp] theorem State.startCommand_bsLen (s : State) (v : Word) : (s.startCommand v).bsLen = s.bsLen := rfl
@[simp] theorem State.startCommand_bsOffset (s : State) (v : Word) : (s.startCommand v).bsOffset = s.bsOffset := rfl
@[simp] theorem State.startCommand_cfg (s : State) (v : Word) : (s.startCommand v).cfg = s.cfg := rfl
@[simp] theorem State.startCommand_vertSize (s : State) (v : Word) : (s.startCommand v).vertSize = s.vertSize := rfl
@[simp] theorem State.startCommand_mbRows (s : State) (v : Word) : (s.startCommand v).mbRows = s.mbRows := rfl
@[simp] theorem State.startCommand_qscale (s : State) (v : Word) : (s.startCommand v).qscale = s.qscale := rfl
@[simp] theorem State.startCommand_mbX (s : State) (v : Word) : (s.startCommand v).mbX = s.mbX := rfl
@[simp] theorem State.startCommand_mbY (s : State) (v : Word) : (s.startCommand v).mbY = s.mbY := rfl
@[simp] theorem State.startCommand_dcY (s : State) (v : Word) : (s.startCommand v).dcY = s.dcY := rfl
@[simp] theorem State.startCommand_dcCb (s : State) (v : Word) : (s.startCommand v).dcCb = s.dcCb := rfl
@[simp] theorem State.startCommand_dcCr (s : State) (v : Word) : (s.startCommand v).dcCr = s.dcCr := rfl
@[simp] theorem State.startCommand_blkCount (s : State) (v : Word) : (s.startCommand v).blkCount = s.blkCount := rfl
@[simp] theorem State.startCommand_rowMask (s : State) (v : Word) : (s.startCommand v).rowMask = s.rowMask := rfl
@[simp] theorem State.startCommand_colMask (s : State) (v : Word) : (s.startCommand v).colMask = s.colMask := rfl
@[simp] theorem State.startCommand_list (s : State) (v : Word) : (s.startCommand v).list = s.list := rfl
@[simp] theorem State.startCommand_qmIntra (s : State) (v : Word) : (s.startCommand v).qmIntra = s.qmIntra := rfl
@[simp] theorem State.startCommand_qmInter (s : State) (v : Word) : (s.startCommand v).qmInter = s.qmInter := rfl
@[simp] theorem State.startCommand_done (s : State) (v : Word) : (s.startCommand v).done = s.done := rfl
@[simp] theorem State.startCommand_found (s : State) (v : Word) : (s.startCommand v).found = s.found := rfl
@[simp] theorem State.startCommand_overrun (s : State) (v : Word) : (s.startCommand v).overrun = s.overrun := rfl
@[simp] theorem State.startCommand_cmdErr (s : State) (v : Word) : (s.startCommand v).cmdErr = s.cmdErr := rfl
@[simp] theorem State.startCommand_errCode (s : State) (v : Word) : (s.startCommand v).errCode = s.errCode := rfl
@[simp] theorem State.startCommand_command (s : State) (v : Word) : (s.startCommand v).command = some v := rfl
@[simp] theorem State.startCommand_mem (s : State) (v : Word) : (s.startCommand v).mem = s.mem := rfl
@[simp] theorem State.startCommand_stuck (s : State) (v : Word) : (s.startCommand v).stuck = s.stuck := rfl
@[simp] theorem State.startCommand_earlier (s : State) (v : Word) : (s.startCommand v).earlier = s.earlier := rfl
@[simp] theorem State.startCommand_turn (s : State) (v : Word) : (s.startCommand v).turn = s.turn := rfl
@[simp] theorem State.startCommand_agenda (s : State) (v : Word) : (s.startCommand v).agenda = s.agenda := rfl
@[simp] theorem State.startCommand_reads (s : State) (v : Word) : (s.startCommand v).reads = s.reads := rfl
@[simp] theorem State.startCommand_draws (s : State) (v : Word) : (s.startCommand v).draws = s.draws := rfl
@[simp] theorem State.startCommand_acTableOne (s : State) (v : Word) : (s.startCommand v).acTableOne = s.acTableOne := rfl

/-! ### dropWrite -/

@[simp] theorem State.dropWrite_result (s : State) : (s.dropWrite).result = s.result := rfl
@[simp] theorem State.dropWrite_bsBase (s : State) : (s.dropWrite).bsBase = s.bsBase := rfl
@[simp] theorem State.dropWrite_bsLen (s : State) : (s.dropWrite).bsLen = s.bsLen := rfl
@[simp] theorem State.dropWrite_bsOffset (s : State) : (s.dropWrite).bsOffset = s.bsOffset := rfl
@[simp] theorem State.dropWrite_cfg (s : State) : (s.dropWrite).cfg = s.cfg := rfl
@[simp] theorem State.dropWrite_vertSize (s : State) : (s.dropWrite).vertSize = s.vertSize := rfl
@[simp] theorem State.dropWrite_mbRows (s : State) : (s.dropWrite).mbRows = s.mbRows := rfl
@[simp] theorem State.dropWrite_qscale (s : State) : (s.dropWrite).qscale = s.qscale := rfl
@[simp] theorem State.dropWrite_mbX (s : State) : (s.dropWrite).mbX = s.mbX := rfl
@[simp] theorem State.dropWrite_mbY (s : State) : (s.dropWrite).mbY = s.mbY := rfl
@[simp] theorem State.dropWrite_dcY (s : State) : (s.dropWrite).dcY = s.dcY := rfl
@[simp] theorem State.dropWrite_dcCb (s : State) : (s.dropWrite).dcCb = s.dcCb := rfl
@[simp] theorem State.dropWrite_dcCr (s : State) : (s.dropWrite).dcCr = s.dcCr := rfl
@[simp] theorem State.dropWrite_blkCount (s : State) : (s.dropWrite).blkCount = s.blkCount := rfl
@[simp] theorem State.dropWrite_rowMask (s : State) : (s.dropWrite).rowMask = s.rowMask := rfl
@[simp] theorem State.dropWrite_colMask (s : State) : (s.dropWrite).colMask = s.colMask := rfl
@[simp] theorem State.dropWrite_list (s : State) : (s.dropWrite).list = s.list := rfl
@[simp] theorem State.dropWrite_qmIntra (s : State) : (s.dropWrite).qmIntra = s.qmIntra := rfl
@[simp] theorem State.dropWrite_qmInter (s : State) : (s.dropWrite).qmInter = s.qmInter := rfl
@[simp] theorem State.dropWrite_done (s : State) : (s.dropWrite).done = s.done := rfl
@[simp] theorem State.dropWrite_found (s : State) : (s.dropWrite).found = s.found := rfl
@[simp] theorem State.dropWrite_overrun (s : State) : (s.dropWrite).overrun = s.overrun := rfl
@[simp] theorem State.dropWrite_cmdErr (s : State) : (s.dropWrite).cmdErr = true := rfl
@[simp] theorem State.dropWrite_errCode (s : State) : (s.dropWrite).errCode = s.errCode := rfl
@[simp] theorem State.dropWrite_command (s : State) : (s.dropWrite).command = s.command := rfl
@[simp] theorem State.dropWrite_mem (s : State) : (s.dropWrite).mem = s.mem := rfl
@[simp] theorem State.dropWrite_stuck (s : State) : (s.dropWrite).stuck = s.stuck := rfl
@[simp] theorem State.dropWrite_earlier (s : State) : (s.dropWrite).earlier = s.earlier := rfl
@[simp] theorem State.dropWrite_turn (s : State) : (s.dropWrite).turn = s.turn := rfl
@[simp] theorem State.dropWrite_agenda (s : State) : (s.dropWrite).agenda = s.agenda := rfl
@[simp] theorem State.dropWrite_reads (s : State) : (s.dropWrite).reads = s.reads := rfl
@[simp] theorem State.dropWrite_draws (s : State) : (s.dropWrite).draws = s.draws := rfl
@[simp] theorem State.dropWrite_acTableOne (s : State) : (s.dropWrite).acTableOne = s.acTableOne := rfl

/-! ### pass -/

@[simp] theorem State.pass_result (s : State) : (s.pass).result = s.result := rfl
@[simp] theorem State.pass_bsBase (s : State) : (s.pass).bsBase = s.bsBase := rfl
@[simp] theorem State.pass_bsLen (s : State) : (s.pass).bsLen = s.bsLen := rfl
@[simp] theorem State.pass_bsOffset (s : State) : (s.pass).bsOffset = s.bsOffset := rfl
@[simp] theorem State.pass_cfg (s : State) : (s.pass).cfg = s.cfg := rfl
@[simp] theorem State.pass_vertSize (s : State) : (s.pass).vertSize = s.vertSize := rfl
@[simp] theorem State.pass_mbRows (s : State) : (s.pass).mbRows = s.mbRows := rfl
@[simp] theorem State.pass_qscale (s : State) : (s.pass).qscale = s.qscale := rfl
@[simp] theorem State.pass_mbX (s : State) : (s.pass).mbX = s.mbX := rfl
@[simp] theorem State.pass_mbY (s : State) : (s.pass).mbY = s.mbY := rfl
@[simp] theorem State.pass_dcY (s : State) : (s.pass).dcY = s.dcY := rfl
@[simp] theorem State.pass_dcCb (s : State) : (s.pass).dcCb = s.dcCb := rfl
@[simp] theorem State.pass_dcCr (s : State) : (s.pass).dcCr = s.dcCr := rfl
@[simp] theorem State.pass_blkCount (s : State) : (s.pass).blkCount = s.blkCount := rfl
@[simp] theorem State.pass_rowMask (s : State) : (s.pass).rowMask = s.rowMask := rfl
@[simp] theorem State.pass_colMask (s : State) : (s.pass).colMask = s.colMask := rfl
@[simp] theorem State.pass_list (s : State) : (s.pass).list = s.list := rfl
@[simp] theorem State.pass_qmIntra (s : State) : (s.pass).qmIntra = s.qmIntra := rfl
@[simp] theorem State.pass_qmInter (s : State) : (s.pass).qmInter = s.qmInter := rfl
@[simp] theorem State.pass_done (s : State) : (s.pass).done = s.done := rfl
@[simp] theorem State.pass_found (s : State) : (s.pass).found = s.found := rfl
@[simp] theorem State.pass_overrun (s : State) : (s.pass).overrun = s.overrun := rfl
@[simp] theorem State.pass_cmdErr (s : State) : (s.pass).cmdErr = s.cmdErr := rfl
@[simp] theorem State.pass_errCode (s : State) : (s.pass).errCode = s.errCode := rfl
@[simp] theorem State.pass_command (s : State) : (s.pass).command = s.command := rfl
@[simp] theorem State.pass_mem (s : State) : (s.pass).mem = s.mem := rfl
@[simp] theorem State.pass_stuck (s : State) : (s.pass).stuck = s.stuck := rfl
@[simp] theorem State.pass_earlier (s : State) : (s.pass).earlier = s.earlier := rfl
@[simp] theorem State.pass_turn (s : State) : (s.pass).turn = .host := rfl
@[simp] theorem State.pass_agenda (s : State) : (s.pass).agenda = s.agenda := rfl
@[simp] theorem State.pass_reads (s : State) : (s.pass).reads = s.reads := rfl
@[simp] theorem State.pass_draws (s : State) : (s.pass).draws = s.draws := rfl
@[simp] theorem State.pass_acTableOne (s : State) : (s.pass).acTableOne = s.acTableOne := rfl

end Sys2Proof.Machine
end

