-- ==== Sys2Proof/Laws/Operations.lean ====
section
/-! SUPPORT. What each shared operation of a command can do, said once: sequencing, completion, the cursor's moves and the
reads of the stream. -/

namespace Sys2Proof.Machine

/-! ## Sequencing -/

@[simp] theorem Res.andThen_ok {α β : Type} (a : α) (s : State) (f : α → State → Res β) :
    (Res.ok a s).andThen f = f a s := rfl

@[simp] theorem Res.andThen_error {α β : Type} (c : ResultCode) (s : State) (f : α → State → Res β) :
    (Res.error c s).andThen f = Res.error c s := rfl

@[simp] theorem Res.andThen_stuck {α β : Type} (f : α → State → Res β) : (Res.stuck : Res α).andThen f = Res.stuck := rfl

/-- A sequence goes on with a value exactly when both parts do. -/
theorem Res.andThen_eq_ok {α β : Type} {r : Res α} {f : α → State → Res β} {b : β} {t : State} :
    r.andThen f = .ok b t ↔ ∃ a s, r = .ok a s ∧ f a s = .ok b t := by
  cases r <;> simp [Res.andThen]

/-- A sequence ends with an error when its first part does, or when its second part does after it. -/
theorem Res.andThen_eq_error {α β : Type} {r : Res α} {f : α → State → Res β} {c : ResultCode} {t : State} :
    r.andThen f = .error c t ↔ r = .error c t ∨ ∃ a s, r = .ok a s ∧ f a s = .error c t := by
  cases r <;> simp [Res.andThen]

/-- A sequence meets a rejected read when its first part does, or when its second part does after it. -/
theorem Res.andThen_eq_stuck {α β : Type} {r : Res α} {f : α → State → Res β} :
    r.andThen f = .stuck ↔ r = .stuck ∨ ∃ a s, r = .ok a s ∧ f a s = .stuck := by
  cases r <;> simp [Res.andThen]

/-! ## Completion -/

/-- A command answers a next state always: completed OK, completed with an error code, or hung. -/
theorem runCommand_cases {body : State → Res Unit} {s t : State} :
    runCommand body s = .next t ↔
      (∃ u, body s = .ok () u ∧ t = u.complete .ok) ∨ (∃ c u, body s = .error c u ∧ t = u.complete c) ∨
        (body s = .stuck ∧ t = s.hang) := by
  unfold runCommand
  cases h : body s <;> simp [eq_comm]

/-- A command neither faults nor is refused. -/
theorem runCommand_next (body : State → Res Unit) (s : State) : ∃ t, runCommand body s = .next t := by
  unfold runCommand
  cases body s <;> simp

theorem runCommand_ok {body : State → Res Unit} {s u : State} (h : body s = .ok () u) :
    runCommand body s = .next (u.complete .ok) := by simp [runCommand, h]

theorem runCommand_error {body : State → Res Unit} {s u : State} {c : ResultCode} (h : body s = .error c u) :
    runCommand body s = .next (u.complete c) := by simp [runCommand, h]

theorem runCommand_stuck {body : State → Res Unit} {s : State} (h : body s = .stuck) :
    runCommand body s = .next s.hang := by simp [runCommand, h]

/-! ## The cursor -/

@[simp] theorem State.consume_off (s : State) (n : Nat) : (s.consume n).off = (s.off + n) % 2 ^ 32 := by
  simp [State.off, State.consume]

@[simp] theorem State.consume_maxBit (s : State) (n : Nat) : (s.consume n).maxBit = s.maxBit := rfl

/-- Align is a Consume of the bits up to the next byte boundary, or nothing (40 R133). -/
theorem State.align_cases (s : State) : (s.off % 8 = 0 ∧ s.align = s) ∨
    (s.off % 8 ≠ 0 ∧ s.align = s.consume (8 - s.off % 8)) := by
  unfold State.align
  split <;> simp_all

/-! ## Reads of the stream -/

/-- What a read of the stream depends on. -/
structure SameStream (s t : State) : Prop where
  base : s.bsBase = t.bsBase
  len : s.bsLen = t.bsLen
  off : s.bsOffset = t.bsOffset
  mem : s.mem = t.mem
  earlier : s.earlier = t.earlier
  draws : s.draws = t.draws

theorem SameStream.memRead {s t : State} (h : SameStream s t) (site i a : Nat) : s.memRead site i a = t.memRead site i a := by
  simp only [State.memRead, State.off, h.off, h.mem, h.earlier, h.draws]

theorem SameStream.bit {s t : State} (h : SameStream s t) (site i : Nat) : s.bit site i = t.bit site i := by
  simp only [State.bit, State.maxBit, h.len, h.base, h.memRead]
  rfl

theorem SameStream.peekLoop {s t : State} (h : SameStream s t) (site n i v : Nat) :
    s.peekLoop site n i v = t.peekLoop site n i v := by
  induction n generalizing i v with
  | zero => rfl
  | succ n ih => simp only [State.peekLoop, h.bit, ih]

theorem SameStream.peek {s t : State} (h : SameStream s t) (n : Nat) : s.peek n = t.peek n := by
  simp only [State.peek, State.off, h.off, h.peekLoop]

theorem SameStream.startsWith {s t : State} (h : SameStream s t) (site code len i : Nat) :
    s.startsWith site code len i = t.startsWith site code len i := by
  induction len generalizing i with
  | zero => rfl
  | succ n ih => simp only [State.startsWith, h.bit, ih]

theorem SameStream.findRow {α : Type} {s t : State} (h : SameStream s t) (table : List (VlcRow α)) (site : Nat) :
    s.findRow table site = t.findRow table site := by
  induction table generalizing site with
  | nil => rfl
  | cons r rest ih => simp only [State.findRow, State.off, h.off, h.startsWith, ih]

/-- A Get that goes on has peeked its value and moved the cursor, and nothing else. -/
theorem State.get_eq_ok {s t : State} {n v : Nat} : s.get n = .ok v t ↔ s.peek n = some v ∧ t = s.consume n := by
  unfold State.get
  cases h : s.peek n <;> simp [eq_comm]

/-- A Get never ends a command with a code. -/
theorem State.get_ne_error (s t : State) (n : Nat) (c : ResultCode) : s.get n ≠ .error c t := by
  unfold State.get
  cases s.peek n <;> simp

/-- A Vlc that goes on has found a row and consumed its codeword, or has found none and consumed nothing (42 R170). -/
theorem State.vlc_eq_ok {α : Type} {s t : State} {table : List (VlcRow α)} {x : Option α} :
    s.vlc table = .ok x t ↔
      (x = none ∧ t = s ∧ s.findRow table vlcSite = some none) ∨
        ∃ r, x = some r.sym ∧ t = s.consume r.len ∧ s.findRow table vlcSite = some (some r) := by
  unfold State.vlc
  rcases h : s.findRow table vlcSite with _ | _ | r <;> simp [eq_comm]

theorem State.vlc_ne_error {α : Type} (s t : State) (table : List (VlcRow α)) (c : ResultCode) :
    s.vlc table ≠ .error c t := by
  unfold State.vlc
  rcases s.findRow table vlcSite with _ | _ | r <;> simp

/-- The row that a search gives is a row of the table. -/
theorem State.findRow_mem {α : Type} {s : State} {table : List (VlcRow α)} {site : Nat} {r : VlcRow α}
    (h : s.findRow table site = some (some r)) : r ∈ table := by
  induction table generalizing site with
  | nil => simp [State.findRow] at h
  | cons q rest ih =>
    simp only [State.findRow] at h
    split at h
    · simp at h
    · simp at h; simp [h]
    · exact List.mem_cons_of_mem _ (ih h)

/-- A codeword that reads as matched is not longer than its row says, so a Peek of n bits is below 2^n (40 R130). -/
theorem State.peekLoop_lt {s : State} {site n i v w : Nat} (h : s.peekLoop site n i v = some w) : w < (v + 1) * 2 ^ n := by
  induction n generalizing i v with
  | zero => simp [State.peekLoop] at h; omega
  | succ n ih =>
    simp only [State.peekLoop] at h
    split at h
    · simp at h
    · next b _ =>
      have h1 := ih h
      have hb : b.toNat ≤ 1 := by cases b <;> simp
      calc w < (2 * v + b.toNat + 1) * 2 ^ n := h1
        _ ≤ (2 * (v + 1)) * 2 ^ n := by gcongr; omega
        _ = (v + 1) * 2 ^ (n + 1) := by ring

theorem State.peek_lt {s : State} {n v : Nat} (h : s.peek n = some v) : v < 2 ^ n := by
  simpa using State.peekLoop_lt h

end Sys2Proof.Machine
end

