-- ==== Sys2Proof/Laws/Commands.lean ====
section
/-! SUPPORT. What the parts of the commands can do to the state, said once: two moves of the cursor are one, and decoding a
symbol moves the cursor and nothing else. -/

namespace Sys2Proof.Machine

/-- Two advances are one advance: the flag is set when either passes MAX, and no advance past 2^32 stays below MAX. -/
theorem State.consume_consume (s : State) (a b : Nat) : (s.consume a).consume b = s.consume (a + b) := by
  have hm : s.maxBit < 2 ^ 31 := by have := s.bsLen.isLt; unfold State.maxBit; omega
  have hb : BitVec.ofNat 32 ((s.off + a) % 2 ^ 32 + b) = BitVec.ofNat 32 (s.off + (a + b)) := by
    apply BitVec.eq_of_toNat_eq; simp; omega
  have ho : overrunAfter (overrunAfter s.overrun (s.off + a) s.maxBit) ((s.off + a) % 2 ^ 32 + b) s.maxBit =
      overrunAfter s.overrun (s.off + (a + b)) s.maxBit := by
    unfold overrunAfter
    rw [Bool.or_assoc]
    congr 1
    rw [Bool.eq_iff_iff]
    simp only [Bool.or_eq_true, decide_eq_true_eq]
    omega
  have e : (s.consume a).consume b = { s.consume a with
      bsOffset := BitVec.ofNat 32 ((s.consume a).off + b)
      overrun := overrunAfter (s.consume a).overrun ((s.consume a).off + b) (s.consume a).maxBit } := rfl
  rw [e, State.consume_off, State.consume_overrun, State.consume_maxBit, hb, ho]
  rfl

/-- The state is left alone, or only the cursor has advanced. -/
def Moves (s t : State) : Prop := t = s ∨ ∃ n, t = s.consume n

theorem Moves.refl (s : State) : Moves s s := .inl rfl

theorem Moves.consume (s : State) (n : Nat) : Moves s (s.consume n) := .inr ⟨n, rfl⟩

theorem Moves.trans {s t u : State} (h : Moves s t) (k : Moves t u) : Moves s u := by
  rcases h with rfl | ⟨a, rfl⟩
  · exact k
  · rcases k with rfl | ⟨b, rfl⟩
    · exact .consume s a
    · rw [State.consume_consume]; exact .consume s (a + b)

theorem Moves.of_get {s t : State} {n v : Nat} (h : s.get n = .ok v t) : Moves s t := by
  rw [(State.get_eq_ok.1 h).2]; exact .consume s n

theorem Moves.of_vlc {α : Type} {s t : State} {table : List (VlcRow α)} {x : Option α} (h : s.vlc table = .ok x t) :
    Moves s t := by
  rcases State.vlc_eq_ok.1 h with ⟨-, rfl, -⟩ | ⟨r, -, rfl, -⟩
  · exact .refl t
  · exact .consume s r.len

/-- An escape moves the cursor and nothing else (42 R174-R176). -/
theorem Moves.of_escape {s t : State} {x : Symbol} (h : escape s = .ok x t) : Moves s t := by
  unfold escape at h
  split at h
  · obtain ⟨run, a, h1, h⟩ := Res.andThen_eq_ok.1 h
    obtain ⟨level, b, h2, h⟩ := Res.andThen_eq_ok.1 h
    cases h
    exact (Moves.of_get h1).trans (.of_get h2)
  · obtain ⟨run, a, h1, h⟩ := Res.andThen_eq_ok.1 h
    obtain ⟨b1, b, h2, h⟩ := Res.andThen_eq_ok.1 h
    split at h
    · obtain ⟨b2, c, h3, h⟩ := Res.andThen_eq_ok.1 h
      cases h
      exact ((Moves.of_get h1).trans (.of_get h2)).trans (.of_get h3)
    · cases h
      exact (Moves.of_get h1).trans (.of_get h2)

/-- An AC symbol moves the cursor and nothing else (42 R173). -/
theorem Moves.of_acSymbol {s t : State} {table : AcTable} {x : Symbol} (h : acSymbol table s = .ok x t) : Moves s t := by
  obtain ⟨sym, a, h1, h⟩ := Res.andThen_eq_ok.1 h
  refine (Moves.of_vlc h1).trans ?_
  rcases sym with _ | _ | _ | ⟨run, l⟩
  · cases h; exact .refl _
  · cases h; exact .refl _
  · exact .of_escape h
  · obtain ⟨sign, b, h2, h⟩ := Res.andThen_eq_ok.1 h
    cases h
    exact .of_get h2

/-- A DC differential moves the cursor and nothing else (42 R171). -/
theorem Moves.of_dcDiff {s t : State} {cc : Component} {d : Int} (h : dcDiff cc s = .ok d t) : Moves s t := by
  obtain ⟨size, a, h1, h⟩ := Res.andThen_eq_ok.1 h
  refine (Moves.of_vlc h1).trans ?_
  rcases size with _ | _ | size
  · cases h
  · cases h; exact .refl _
  · obtain ⟨bits, b, h2, h⟩ := Res.andThen_eq_ok.1 h
    cases h
    exact .of_get h2

end Sys2Proof.Machine
end

