-- ==== Sys2Proof/Laws/Memory.lean ====
section
/-! SUPPORT. Host memory: a store keeps the canonical form, and a read after a store. -/

namespace Sys2Proof.Machine

/-- A list whose head rises above `a` keeps the canonical form under a cons at `a`. -/
theorem Memory.wf_cons {c : Host.Cell} {m : Memory} :
    Memory.wf (c :: m) = true ↔ c.1 < 2 ^ 32 ∧ Memory.wf m = true ∧ ∀ d ∈ m.head?, c.1 < d.1 := by
  cases m with
  | nil => simp [Memory.wf]
  | cons d rest =>
    constructor
    · intro h
      have h : c.1 < d.1 ∧ Memory.wf (d :: rest) = true := by simpa [Memory.wf] using h
      have hd : d.1 < 2 ^ 32 := by
        cases rest with
        | nil => simpa [Memory.wf] using h.2
        | cons e r => exact (Memory.wf_cons (c := d) (m := e :: r)).1 h.2 |>.1
      exact ⟨by omega, h.2, by simpa using h.1⟩
    · rintro ⟨-, h2, h3⟩
      simpa [Memory.wf] using ⟨by simpa using h3, h2⟩

/-- The first address after a store is the stored one or the first one before it. -/
theorem Memory.head_write (m : Memory) (a : Nat) (b : Byte) :
    ∀ d ∈ (Memory.write m a b).head?, d.1 = a ∨ ∃ e ∈ m.head?, d.1 = e.1 := by
  cases m with
  | nil => simp [Memory.write]
  | cons c rest =>
    intro d hd
    unfold Memory.write at hd
    split at hd
    · simp at hd; left; simp [← hd]
    · split at hd
      · simp at hd; left; simp [← hd]
      · simp at hd; right; exact ⟨c, by simp, by simp [hd]⟩

/-- A store inside the address space keeps the canonical form. -/
theorem Memory.write_wf {m : Memory} {a : Nat} {b : Byte} (h : Memory.wf m = true) (ha : a < 2 ^ 32) :
    Memory.wf (Memory.write m a b) = true := by
  induction m with
  | nil => simpa [Memory.write, Memory.wf] using ha
  | cons c rest ih =>
    obtain ⟨hc, hr, hh⟩ := Memory.wf_cons.1 h
    unfold Memory.write
    split
    · exact Memory.wf_cons.2 ⟨ha, h, by simpa⟩
    · split
      · next heq => exact Memory.wf_cons.2 ⟨ha, hr, by simpa [heq] using hh⟩
      · refine Memory.wf_cons.2 ⟨hc, ih hr, ?_⟩
        intro d hd
        rcases Memory.head_write rest a b d hd with h1 | ⟨e, he, h1⟩
        · omega
        · have := hh e he; omega

/-- A byte reads back as stored. -/
theorem Memory.read_write_same (m : Memory) (a : Nat) (b : Byte) : Memory.read (Memory.write m a b) a = some b := by
  induction m with
  | nil => simp [Memory.write, Memory.read]
  | cons c rest ih =>
    unfold Memory.write
    split
    · simp [Memory.read]
    · split
      · simp [Memory.read]
      · next h => simp [Memory.read, Ne.symm h, ih]

/-- A store leaves every other address alone. -/
theorem Memory.read_write_other {a x : Nat} (m : Memory) (b : Byte) (h : x ≠ a) :
    Memory.read (Memory.write m a b) x = Memory.read m x := by
  induction m with
  | nil => simp [Memory.write, Memory.read, Ne.symm h]
  | cons c rest ih =>
    unfold Memory.write
    split
    · simp [Memory.read, Ne.symm h]
    · split
      · next heq => subst heq; simp [Memory.read, Ne.symm h]
      · simp [Memory.read, ih]

end Sys2Proof.Machine
end

