-- ==== Sys2Proof/Laws/PerInstr.lean ====
section
/-! SUPPORT. Statements about every instruction, one lemma per constructor: the fields of its command word
(30_encoding.md R80). -/

namespace Sys2Proof.Laws.EncodingFields

/-- The word of an instruction has Z = 0, its argument in A and its row's opcode in OP. -/
def Statement (i : Instr) : Prop :=
  zField (encode i) = 0 ∧ argField (encode i) = argument i ∧ opField (encode i) = opcode i

/-- The three fields of a word that is put together from them. -/
theorem fields_of_word (a op : Byte) :
    zField (BitVec.ofNat 32 (a.toNat * 2 ^ 8 + op.toNat)) = 0 ∧ argField (BitVec.ofNat 32 (a.toNat * 2 ^ 8 + op.toNat)) = a ∧
      opField (BitVec.ofNat 32 (a.toNat * 2 ^ 8 + op.toNat)) = op := by
  refine ⟨?_, ?_, ?_⟩ <;> apply BitVec.eq_of_toNat_eq <;>
    simp [zField, argField, opField, Nat.shiftRight_eq_div_pow] <;> omega

theorem nop : Statement .nop := fields_of_word _ _
theorem peek (n : Nat) : Statement (.peek n) := fields_of_word _ _
theorem consume (n : Nat) : Statement (.consume n) := fields_of_word _ _
theorem get (n : Nat) : Statement (.get n) := fields_of_word _ _
theorem align : Statement .align := fields_of_word _ _
theorem scanAny : Statement .scanAny := fields_of_word _ _
theorem scanCode (xx : Byte) : Statement (.scanCode xx) := fields_of_word _ _
theorem sliceHdr : Statement .sliceHdr := fields_of_word _ _
theorem dcReset : Statement .dcReset := fields_of_word _ _
theorem decIntra (cc : Component) : Statement (.decIntra cc) := fields_of_word _ _
theorem decNonintra : Statement .decNonintra := fields_of_word _ _
theorem qmDefault (intra inter : Bool) : Statement (.qmDefault intra inter) := fields_of_word _ _
theorem qmLoad (m : WeightSel) : Statement (.qmLoad m) := fields_of_word _ _

end Sys2Proof.Laws.EncodingFields
end

