-- ==== Sys2Proof/Tests/Slice0.lean ====
section
/-! SUPPORT. Tests: ill-formed terms, words written out from the encodings of the spec, worked vectors of 95_test_vectors.md
and of the command rules, the form of the tables, and a witness for the hypotheses of each statement. -/

namespace Sys2Proof.Tests

open Sys2Proof.Machine

/-! ## Helpers -/

/-- Bytes in memory from an address on. -/
def bytesAt (base : Nat) : List Byte → Memory
  | [] => []
  | b :: rest => (base, b) :: bytesAt (base + 1) rest

/-- The reset state with a buffer at 0x1000 and the cursor at a bit. -/
def withBuffer (l : List Byte) (off : Nat) : State :=
  { State.reset with
    mem := bytesAt 0x1000 l, bsBase := 0x1000, bsLen := BitVec.ofNat 28 l.length, bsOffset := BitVec.ofNat 32 off }

/-- The same in MPEG-2 mode or MPEG-1 mode with QSCALE 16 (95 Part 2, VLD). -/
def withBlock (mpeg2 : Bool) (l : List Byte) : State :=
  { withBuffer l 0 with cfg := ⟨mpeg2, false, false, false, 0⟩, qscale := 16 }

/-- A picture for SLICE_HDR (44 R261). -/
def withPicture (l : List Byte) (vertSize rows : Nat) (qst : Bool) (prec : BitVec 2) : State :=
  { withBuffer l 0 with
    cfg := ⟨false, qst, false, false, prec⟩, vertSize := BitVec.ofNat 14 vertSize, mbRows := BitVec.ofNat 11 rows }

/-- One host event pending. -/
def withEvent (e : HostEvent) : State := { State.reset with agenda := [e] }

/-- The next state of an outcome; the reset state of any other. -/
def stateOf (o : Host.Outcome State Fault Refusal) : State :=
  match o with
  | .next s => s
  | .fault _ => State.reset
  | .refused _ => State.reset

/-- The outcome is a next state. -/
def isNext (o : Host.Outcome State Fault Refusal) : Bool :=
  match o with
  | .next _ => true
  | .fault _ => false
  | .refused _ => false

theorem eq_next_of_isNext {o : Host.Outcome State Fault Refusal} (h : isNext o = true) : o = .next (stateOf o) := by
  cases o <;> simp_all [isNext, stateOf]

/-- The state after a step runs a command word. -/
def after (w : Word) (s : State) : State := stateOf (step (s.withCommand w))

/-- The block output: (POS, VALUE) of each entry (10 R34). -/
def block (s : State) : List (Nat × Int) :=
  (s.list.toList.take s.blkCount.toNat).map fun e => (e.pos.toNat, e.value.toInt)

/-! ## Ill-formed terms (30 R81) -/

theorem test_wellFormed_refuses_peek_33 : (Instr.peek 33).wellFormed = false := by decide
theorem test_wellFormed_refuses_consume_33 : (Instr.consume 33).wellFormed = false := by decide
theorem test_wellFormed_refuses_get_33 : (Instr.get 33).wellFormed = false := by decide
theorem test_wellFormed_refuses_empty_default : (Instr.qmDefault false false).wellFormed = false := by decide

/-! ## Words from the encodings (30 R81, R85) -/

theorem test_decode_nop : decode 0x00000000 = .ok .nop := by decide
theorem test_decode_peek : decode 0x00000C01 = .ok (.peek 12) := by decide
theorem test_decode_consume : decode 0x00002002 = .ok (.consume 32) := by decide
theorem test_decode_get : decode 0x00000103 = .ok (.get 1) := by decide
theorem test_decode_align : decode 0x00000004 = .ok .align := by decide
theorem test_decode_scanAny : decode 0x00000008 = .ok .scanAny := by decide
theorem test_decode_scanCode : decode 0x0000B309 = .ok (.scanCode 0xB3) := by decide
theorem test_decode_sliceHdr : decode 0x00000010 = .ok .sliceHdr := by decide
theorem test_decode_dcReset : decode 0x00000011 = .ok .dcReset := by decide
theorem test_decode_decIntra : decode 0x00000120 = .ok (.decIntra .cb) ∧ decode 0x00000220 = .ok (.decIntra .cr) := by decide
theorem test_decode_decNonintra : decode 0x00000021 = .ok .decNonintra := by decide
theorem test_decode_qmDefault :
    decode 0x00000330 = .ok (.qmDefault true true) ∧ decode 0x00000230 = .ok (.qmDefault false true) := by decide
theorem test_decode_qmLoad : decode 0x00000131 = .ok (.qmLoad .intra) ∧ decode 0x00000231 = .ok (.qmLoad .inter) := by decide

/-- V45-V51 of 95 Part 2 and V42. -/
theorem test_decode_illegal :
    decode 0x00000005 = .error .unknownOpcode ∧ decode 0x00002101 = .error .argumentOutOfRange ∧
    decode 0x00010000 = .error .reservedNonzero ∧ decode 0x00000331 = .error .argumentOutOfRange ∧
    decode 0x00000320 = .error .argumentOutOfRange ∧ decode 0x00000111 = .error .argumentOutOfRange ∧
    decode 0x000000FF = .error .unknownOpcode ∧ decode 0x00000030 = .error .argumentOutOfRange := by decide

theorem test_encode_words :
    encode (.peek 12) = 0x00000C01 ∧ encode (.scanCode 0xB3) = 0x0000B309 ∧ encode (.decIntra .cb) = 0x00000120 ∧
    encode (.qmDefault true true) = 0x00000330 ∧ encode (.qmLoad .inter) = 0x00000231 := by decide

theorem test_decodeTableWord :
    decodeTableWord 32 0x801 = some (.peek 8) ∧ decodeTableWord 8 0x10004 = some .align ∧ decodeTableWord 32 0x30 = none := by
  decide

/-! ## The tables (93 Part 4) -/

theorem test_acTableZero_form : acTableWellFormed acTableZero = true ∧ acTableZero.length = 113 := by decide +kernel
theorem test_acTableOneCandidate_form :
    acTableWellFormed acTableOneCandidate = true ∧ acTableOneCandidate.length = 113 := by decide +kernel
theorem test_dcTables_form : prefixFree dcLuma = true ∧ prefixFree dcChroma = true ∧
    (dcLuma.map fun r => 2 ^ (10 - r.len)).sum = 1024 ∧ (dcChroma.map fun r => 2 ^ (10 - r.len)).sum = 1024 := by decide
theorem test_acTableZero_kraft : (acTableZero.map fun r => 2 ^ (16 - r.len)).sum = 4095 * 2 ^ 4 := by decide
theorem test_scans_are_permutations :
    (∀ p, p < 64 → p ∈ zigzag) ∧ (∀ p, p < 64 → p ∈ altScan) ∧ zigzag.length = 64 ∧ altScan.length = 64 := by decide

/-! ## Commands: the vectors of 95 Part 2 -/

theorem test_nop : (after 0x000 (withBuffer [0xA5, 0x3C] 4)).statusWord = 0x2 := by decide
/-- V2, V3. -/
theorem test_peek : (after 0x801 (withBuffer [0xA5, 0x3C] 4)).result = 0x53 ∧
    (after 0x2001 (withBuffer [0xA5, 0x3C] 4)).result = 0x53C00000 := by decide
/-- V6. -/
theorem test_consume : let t := after 0x802 (withBuffer [0xA5, 0x3C] 12); t.off = 20 ∧ t.overrun = true := by decide
/-- V10a. -/
theorem test_consume_zero_past_end : (after 0x002 (withBuffer [0xA5, 0x3C] 20)).overrun = true := by decide
/-- V5. -/
theorem test_get : let t := after 0x2003 (withBuffer [0xA5, 0x3C] 4); t.result = 0x53C00000 ∧ t.off = 36 ∧ t.overrun = true := by
  decide
/-- V7, V8. -/
theorem test_align : (after 0x004 (withBuffer [0xA5, 0x3C] 12)).off = 16 ∧ (after 0x004 (withBuffer [0xA5, 0x3C] 16)).off = 16 := by
  decide
/-- V11. -/
theorem test_scanAny : let t := after 0x008 (withBuffer [0xFF, 0, 0, 1, 0xB3, 0x12] 3)
    t.found = true ∧ t.result = 0x1B3 ∧ t.off = 8 := by decide
/-- V14. -/
theorem test_scanAny_code_byte_past_end : let t := after 0x008 (withBuffer [0x12, 0, 0, 1] 0)
    t.found = true ∧ t.result = 0x100 ∧ t.off = 8 := by decide
/-- V12. -/
theorem test_scanCode : let t := after 0x009 (withBuffer [0, 0, 1, 0xB3, 0, 0, 1, 0, 0x11] 0)
    t.found = true ∧ t.result = 0x100 ∧ t.off = 32 := by decide
/-- V15. -/
theorem test_scanCode_not_faked_by_zero_fill : let t := after 0x009 (withBuffer [0x12, 0, 0, 1] 0)
    t.found = false ∧ t.result = 0 ∧ t.off = 32 := by decide
/-- 44 R261, row 2. -/
theorem test_sliceHdr : let t := after 0x010 (withPicture [0, 0, 1, 5, 0x16, 0xAB, 0xE0] 480 30 false 0)
    t.result = 5 ∧ t.off = 56 ∧ t.qscale = 4 ∧ t.mbY = 4 ∧ t.dcY = 128 := by decide
/-- 44 R261, row 3. -/
theorem test_sliceHdr_extension : let t := after 0x010 (withPicture [0, 0, 1, 0x2C, 0x34, 0] 2880 180 true 2)
    t.result = 172 ∧ t.off = 41 ∧ t.qscale = 40 ∧ t.mbY = 171 ∧ t.dcCr = 512 := by decide
/-- V43. -/
theorem test_dcReset : (after 0x011 { State.reset with cfg := ⟨false, false, false, false, 2⟩, dcY := 133 }).dcY = 512 := by decide
/-- V19. -/
theorem test_decIntra : let t := after 0x020 (withBlock true [0xB5, 0x10])
    block t = [(0, 1064), (1, 32), (63, 1)] ∧ t.rowMask = 0x81 ∧ t.colMask = 0x83 ∧ t.off = 13 ∧ t.dcY = 133 := by decide
/-- V25. -/
theorem test_decIntra_predictor_wraps : let t := after 0x020 { withBlock false [0x30] with dcY := 0x7FFF }
    block t = [(0, -2048)] ∧ t.dcY = 0x8000 := by decide
/-- V33. -/
theorem test_decNonintra_escape : let t := after 0x021 (withBlock false [0x04, 0x20, 0x08, 0x08])
    block t = [(8, 2047)] ∧ t.off = 30 := by decide
/-- V36. -/
theorem test_decNonintra_overflow : let t := after 0x021 (withBlock true [0x07, 0xF0, 0x01, 0x04, 0x00, 0x01, 0x80])
    t.errCode = .mbTexDecodeErr ∧ block t = [(63, 24)] ∧ t.off = 48 := by decide
/-- V37. -/
theorem test_decNonintra_invalid : let t := after 0x021 (withBlock true [0x70, 0x00, 0x80])
    t.errCode = .vlcInvalid ∧ block t = [(1, -24)] ∧ t.off = 4 := by decide
/-- V40. -/
theorem test_qmDefault : (after 0x230 { State.reset with qmInter := Vector.replicate 64 3 }).readOffset 0x240 = 0x10101010 := by
  decide
/-- V41, for the first eight bytes: positions 0, 1, 8, 16, 9, 2, 3, 10. -/
theorem test_qmLoad : let t := after 0x231 (withBuffer [1, 2, 3, 4, 5, 6, 7, 8] 0)
    t.readOffset 0x240 = 0x07060201 ∧ t.off = 512 ∧ t.overrun = true := by decide +kernel

/-- 40 R131, R133, 41 R150: an alignment that wraps sets OVERRUN, and the scan goes on from 0 (log 27). -/
theorem test_scan_alignment_wraps : let t := after 0x008 { withBuffer [0, 0, 1, 0xB3] 0 with bsOffset := 0xFFFFFFF9 }
    t.found = true ∧ t.off = 0 ∧ t.overrun = true := by decide

/-! ## The host's side -/

/-- 70 R315: a write while a command runs is dropped. -/
theorem test_busy_write_dropped : let t := stateOf (step { withEvent (.write 0x030 .word 5) with command := some 0 })
    t.qscale = 0 ∧ t.cmdErr = true := by decide
/-- 10 R24: W1C. -/
theorem test_status_w1c : (State.hostWrite { State.reset with done := true, overrun := true } 0x008 0x8).statusWord = 0x2 := by
  decide
/-- 70 R300. -/
theorem test_soft_reset : (stateOf (step { withEvent (.write 0x004 .word 1) with qscale := 9 })).qscale = 0 := by decide
/-- 20 R69, 70 R300: a reset uses up the draws of a stuck command. -/
theorem test_reset_uses_up_draws :
    (stateOf (step { withEvent .reset with command := some 0x801, stuck := true, draws := 7 })).draws = 8 := by decide
/-- 20 R67. -/
theorem test_narrow_access_refused : isNext (step (withEvent (.read 0x010 .half))) = false := by decide

/-! ## Witnesses: the hypotheses of each statement are met together -/

/-- A buffer of two bytes. -/
def twoBytes : State := withBuffer [0xA5, 0x3C] 4

theorem quiet_twoBytes : twoBytes.quiet := rfl

/-- A Bool that says a quiet buffer is readable. -/
def readableBool (s : State) : Bool :=
  (List.range s.bsLen.toNat).all (fun j => (Memory.read s.mem ((s.bsBase.toNat + j) % 2 ^ 32)).isSome)

theorem readable_of {s : State} (hq : s.quiet) (h : readableBool s = true) : s.readable := by
  constructor
  · intro j hj
    have := List.all_eq_true.1 h j (List.mem_range.2 hj)
    exact this
  · rw [hq]; simp

theorem readable_twoBytes : twoBytes.readable := readable_of rfl (by decide)

theorem witness_resets : ∃ (s : State) (e : HostEvent) (rest : List HostEvent), s.turn = .host ∧ s.agenda = e :: rest ∧
    (e = .reset ∨ ∃ v, v.getLsbD 0 = true ∧ e = .write 0x004 .word v) :=
  ⟨withEvent (.write 0x004 .word 1), _, [], rfl, rfl, .inr ⟨1, by decide, rfl⟩⟩

theorem witness_resets_zero : ∃ (s : State) (v : Word) (rest : List HostEvent), s.turn = .host ∧
    s.agenda = .write 0x004 .word v :: rest ∧ v.getLsbD 0 = false :=
  ⟨withEvent (.write 0x004 .word 2), 2, [], rfl, rfl, by decide⟩

theorem witness_step_runs : ∃ (s : State) (w : Word) (i : Instr), (s.turn = .block ∨ s.agenda = []) ∧ s.command = some w ∧
    s.stuck = false ∧ decode w = .ok i :=
  ⟨twoBytes.withCommand 0x801, 0x801, .peek 8, .inl rfl, rfl, rfl, by decide⟩

theorem witness_illegal_word : ∃ (s : State) (w : Word) (r : DecodeError), (s.turn = .block ∨ s.agenda = []) ∧
    s.command = some w ∧ s.stuck = false ∧ decode w = .error r :=
  ⟨twoBytes.withCommand 0x331, 0x331, .argumentOutOfRange, .inl rfl, rfl, rfl, by decide⟩

theorem witness_wellFormed : ∃ i : Instr, i.wellFormed = true := ⟨.peek 32, by decide⟩

theorem witness_decodes : ∃ (w : Word) (i : Instr), decode w = .ok i := ⟨0x2003, .get 32, by decide⟩

/-- PeekIsTheNextBitsOfTheStream, PeekPutsTheNextBitsInResult, GetReturnsTheBitsAndAdvances. -/
theorem witness_reading : ∃ (s : State) (n : Nat), s.quiet ∧ s.readable ∧ n ≤ 32 :=
  ⟨twoBytes, 32, quiet_twoBytes, readable_twoBytes, by decide⟩

theorem witness_peek_past_end : ∃ (s : State) (n : Nat), n ≤ 32 ∧ 8 * s.bsLen.toNat ≤ s.bsOffset.toNat :=
  ⟨withBuffer [0xA5, 0x3C] 16, 32, by decide, by decide⟩

theorem witness_consume : ∃ n : Nat, n ≤ 32 := ⟨32, by decide⟩

/-- A buffer of 64 bytes at address 0 of which none can be read, and one whose first byte only can be read. -/
def rejectedBuffer : State := { State.reset with bsLen := 64 }
def halfBuffer : State := { rejectedBuffer with mem := [(0, 0)] }

theorem witness_rejected_peek : ∃ (s : State) (n k : Nat), s.quiet ∧ n ≤ 32 ∧ k < n ∧ s.rejects (s.bsOffset.toNat + k) :=
  ⟨halfBuffer, 32, 8, rfl, by decide, by decide, by decide, by decide⟩

theorem witness_rejected_scan : ∃ (s : State) (k : Nat), s.quiet ∧ s.align.off + 8 * k + 32 ≤ s.maxBit ∧
    s.rejects (s.align.off + 8 * k) ∧ (∀ j, j < k → bitsValue s.streamBit (s.align.off + 8 * j) 24 ≠ 0x000001) ∧
    ∀ j, j < k → bitsValue s.streamBit (s.align.off + 8 * j) 32 ≠ 0x000001B3 :=
  ⟨halfBuffer, 1, rfl, by decide, ⟨by decide, by decide⟩, by decide, by decide⟩

theorem witness_rejected_slice : ∃ s : State, s.quiet ∧ s.rejects (s.consume 24).off :=
  ⟨rejectedBuffer, rfl, by decide, by decide⟩

theorem witness_rejected_dec : ∃ s : State, s.quiet ∧
    ¬(s.cfg.mpeg2 = true ∧ s.cfg.intraVlcFormat = true ∧ s.acTableOne = none) ∧ s.rejects s.off :=
  ⟨rejectedBuffer, rfl, by decide, by decide, by decide⟩

theorem witness_rejected_qmLoad : ∃ (s : State) (i j : Nat), s.quiet ∧ i < 64 ∧ j < 8 ∧
    s.rejects ((s.consume (8 * i)).off + j) := ⟨halfBuffer, 63, 7, rfl, by decide, by decide, by decide, by decide⟩

/-- The buffer of V11. -/
def scanBuffer : State := withBuffer [0xFF, 0, 0, 1, 0xB3, 0x12] 3

theorem readable_scanBuffer : scanBuffer.readable := readable_of rfl (by decide)

theorem witness_scanAny_found : ∃ (s : State) (k : Nat), s.quiet ∧ s.readable ∧ s.align.off + 8 * k + 24 ≤ s.maxBit ∧
    bitsValue s.streamBit (s.align.off + 8 * k) 24 = 0x000001 ∧
    ∀ j, j < k → bitsValue s.streamBit (s.align.off + 8 * j) 24 ≠ 0x000001 :=
  ⟨scanBuffer, 0, rfl, readable_scanBuffer, by decide, by decide, by decide⟩

theorem witness_scanAny_not_found : ∃ s : State, s.quiet ∧ s.readable ∧
    ∀ k, s.align.off + 8 * k + 24 ≤ s.maxBit → bitsValue s.streamBit (s.align.off + 8 * k) 24 ≠ 0x000001 := by
  refine ⟨twoBytes, rfl, readable_twoBytes, fun k hk => ?_⟩
  have h : twoBytes.maxBit = 16 ∧ twoBytes.align.off = 8 := by decide
  omega

theorem witness_scanCode_found : ∃ (s : State) (xx : Byte) (k : Nat), s.quiet ∧ s.readable ∧
    s.align.off + 8 * k + 32 ≤ s.maxBit ∧ bitsValue s.streamBit (s.align.off + 8 * k) 32 = 0x00000100 + xx.toNat ∧
    ∀ j, j < k → bitsValue s.streamBit (s.align.off + 8 * j) 32 ≠ 0x00000100 + xx.toNat :=
  ⟨scanBuffer, 0xB3, 0, rfl, readable_scanBuffer, by decide, by decide, by decide⟩

theorem witness_scanCode_not_found : ∃ (s : State) (xx : Byte), s.quiet ∧ s.readable ∧
    ∀ k, s.align.off + 8 * k + 32 ≤ s.maxBit → bitsValue s.streamBit (s.align.off + 8 * k) 32 ≠ 0x00000100 + xx.toNat := by
  refine ⟨twoBytes, 0, rfl, readable_twoBytes, fun k hk => ?_⟩
  have h : twoBytes.maxBit = 16 ∧ twoBytes.align.off = 8 := by decide
  omega

/-- The slice header of 44 R261, row 5 (position 31 of 30 rows) and row 2. -/
def badSlice : State := withPicture [0, 0, 1, 0x1F, 0x40] 480 30 false 0
def goodSlice : State := withPicture [0, 0, 1, 5, 0x16, 0xAB, 0xE0] 480 30 false 0

theorem witness_slice_rejected : ∃ (s : State) (pos : Nat), s.quiet ∧ s.readable ∧
    pos = (s.consume 24).streamNat 8 + (if 2800 < s.vertSize.toNat then (s.consume 32).streamNat 3 * 128 else 0) ∧
    (pos = 0 ∨ s.mbRows.toNat < pos) :=
  ⟨badSlice, 31, rfl, readable_of rfl (by decide), by decide, by decide⟩

theorem witness_slice_loaded : ∃ (s u w : State) (pos q k : Nat), s.quiet ∧ s.readable ∧
    pos = (s.consume 24).streamNat 8 + (if 2800 < s.vertSize.toNat then (s.consume 32).streamNat 3 * 128 else 0) ∧
    0 < pos ∧ pos ≤ s.mbRows.toNat ∧ u = s.consume (if 2800 < s.vertSize.toNat then 35 else 32) ∧ q = u.streamNat 5 ∧
    w = u.consume 5 ∧ (∀ j, j < k → (w.consume (9 * j)).streamNat 1 = 1) ∧ (w.consume (9 * k)).streamNat 1 = 0 :=
  ⟨goodSlice, _, _, 5, _, 2, rfl, readable_of rfl (by decide), by decide, by decide, by decide, rfl, rfl, rfl, by decide,
    by decide⟩

theorem witness_dcReset : ∃ (s : State) (v : BitVec 16),
    v.toNat = [128, 256, 512, 1024].getD s.cfg.intraDcPrecision.toNat 0 := ⟨State.reset, 128, by decide⟩

/-- The block of V19: DC `101 101`, then (0, +2) `0100 0`, then EOB. -/
def intraBlock : State := withBlock true [0xB5, 0x10]

theorem readable_intraBlock : intraBlock.readable := readable_of rfl (by decide)

theorem witness_dcDiff : ∃ (s : State) (cc : Component) (r : VlcRow Nat) (bits : Nat), s.quiet ∧ s.readable ∧ r ∈ dcTable cc ∧
    s.streamNat r.len = r.code ∧ bits = (s.consume r.len).streamNat r.sym :=
  ⟨intraBlock, .y, ⟨3, 0b101, 3⟩, _, rfl, readable_intraBlock, by decide, by decide, rfl⟩

theorem witness_dcDifferential : ∃ (size : Nat) (d : Int), 1 ≤ size ∧ size ≤ 11 ∧ (2 : Int) ^ (size - 1) ≤ |d| ∧
    |d| ≤ 2 ^ size - 1 := ⟨11, -2047, by decide, by decide, by decide, by decide⟩

/-- A block that starts with (2, +1) `0101 0`, and one that starts with EOB. -/
def runBlock : State := withBlock true [0x54, 0x80]
def eobBlock : State := withBlock true [0x80]

theorem witness_acSymbol_run : ∃ (s : State) (table : AcTable) (r : VlcRow AcSym), s.quiet ∧ s.readable ∧
    acTableWellFormed table = true ∧ r ∈ table ∧ s.streamNat r.len = r.code ∧ ∃ run a, r.sym = .runLevel run a :=
  ⟨runBlock, acTableZero, ⟨4, 0b0101, .runLevel 2 1⟩, rfl, readable_of rfl (by decide), test_acTableZero_form.1, by decide,
    by decide, 2, 1, rfl⟩

theorem witness_acSymbol_eob : ∃ (s : State) (table : AcTable) (r : VlcRow AcSym), s.quiet ∧ s.readable ∧
    acTableWellFormed table = true ∧ r ∈ table ∧ s.streamNat r.len = r.code ∧ r.sym = .eob :=
  ⟨eobBlock, acTableZero, ⟨2, 0b10, .eob⟩, rfl, readable_of rfl (by decide), test_acTableZero_form.1, by decide, by decide, rfl⟩

/-- The first escape of V30, V32, V33 and V34. -/
def escapeBlock (mpeg2 : Bool) (l : List Byte) : State := withBlock mpeg2 l

theorem witness_escape_mpeg2 : ∃ (s : State) (table : AcTable) (run b1 : Nat), s.quiet ∧ s.readable ∧
    acTableWellFormed table = true ∧ s.streamNat 6 = 0b000001 ∧ run = (s.consume 6).streamNat 6 ∧
    b1 = (s.consume 12).streamNat 8 ∧ s.cfg.mpeg2 = true :=
  ⟨escapeBlock true [0x04, 0x30, 0x05, 0x80], acTableZero, _, _, rfl, readable_of rfl (by decide), test_acTableZero_form.1,
    by decide, rfl, rfl, rfl⟩

theorem witness_escape_mpeg1_short : ∃ (s : State) (table : AcTable) (run b1 : Nat), s.quiet ∧ s.readable ∧
    acTableWellFormed table = true ∧ s.streamNat 6 = 0b000001 ∧ run = (s.consume 6).streamNat 6 ∧
    b1 = (s.consume 12).streamNat 8 ∧ s.cfg.mpeg2 = false ∧ b1 ≠ 0x00 ∧ b1 ≠ 0x80 :=
  ⟨escapeBlock false [0x04, 0x0F, 0xF8], acTableZero, 0, 255, rfl, readable_of rfl (by decide), test_acTableZero_form.1,
    by decide, by decide, by decide, rfl, by decide, by decide⟩

theorem witness_escape_mpeg1_long : ∃ (s : State) (table : AcTable) (run b1 : Nat), s.quiet ∧ s.readable ∧
    acTableWellFormed table = true ∧ s.streamNat 6 = 0b000001 ∧ run = (s.consume 6).streamNat 6 ∧
    b1 = (s.consume 12).streamNat 8 ∧ s.cfg.mpeg2 = false ∧ b1 = 0x00 :=
  ⟨escapeBlock false [0x04, 0x20, 0x08, 0x08], acTableZero, 2, 0, rfl, readable_of rfl (by decide), test_acTableZero_form.1,
    by decide, by decide, by decide, rfl, rfl⟩

theorem witness_escape_mpeg1_long_negative : ∃ (s : State) (table : AcTable) (run b1 : Nat), s.quiet ∧ s.readable ∧
    acTableWellFormed table = true ∧ s.streamNat 6 = 0b000001 ∧ run = (s.consume 6).streamNat 6 ∧
    b1 = (s.consume 12).streamNat 8 ∧ s.cfg.mpeg2 = false ∧ b1 = 0x80 :=
  ⟨escapeBlock false [0x04, 0x08, 0x00, 0x18], acTableZero, 0, 128, rfl, readable_of rfl (by decide), test_acTableZero_form.1,
    by decide, by decide, by decide, rfl, rfl⟩

theorem witness_decIntra : ∃ (s v u : State) (cc : Component) (table : AcTable) (d : Int) (rest : List (Nat × Int))
    (e : BlockEnd), (s.cfg.mpeg2 = false ∨ s.cfg.intraVlcFormat = false → table = acTableZero) ∧
    (s.cfg.mpeg2 = true → s.cfg.intraVlcFormat = true → s.acTableOne = some table) ∧ dcDiff cc s = .ok d v ∧
    Parses table 1 v rest e u :=
  ⟨intraBlock, intraBlock.consume 6, intraBlock.consume 13, .y, acTableZero, 5, [(0, 2)], .eob, fun _ => rfl,
    fun _ h => absurd h (by decide), rfl, intraBlock.consume 11, rfl, by decide, rfl⟩

theorem witness_decIntra_invalid : ∃ (s v u : State) (cc : Component) (table : AcTable) (d : Int),
    (s.cfg.mpeg2 = false ∨ s.cfg.intraVlcFormat = false → table = acTableZero) ∧
    (s.cfg.mpeg2 = true → s.cfg.intraVlcFormat = true → s.acTableOne = some table) ∧ dcDiff cc s = .ok d v ∧
    Parses table 1 v [] .invalid u :=
  ⟨withBlock true [0x80], (withBlock true [0x80]).consume 3, (withBlock true [0x80]).consume 3, .y, acTableZero, 0, fun _ => rfl,
    fun _ h => absurd h (by decide), rfl, rfl⟩

/-- AC_TABLE_ONE supplied (the table itself is free): DC `100`, then the escape `000001 111111 000000000001`, whose run 63
passes scan index 63 at once. -/
def overflowBlock : State :=
  { withBlock true [0x80, 0xFE, 0x00, 0x20] with cfg := ⟨true, false, true, false, 0⟩, acTableOne := some acTableZero }

theorem witness_decIntra_overflow : ∃ (s v u : State) (cc : Component) (table : AcTable) (d : Int),
    (s.cfg.mpeg2 = false ∨ s.cfg.intraVlcFormat = false → table = acTableZero) ∧
    (s.cfg.mpeg2 = true → s.cfg.intraVlcFormat = true → s.acTableOne = some table) ∧ dcDiff cc s = .ok d v ∧
    Parses table 1 v [] .overflow u :=
  ⟨overflowBlock, overflowBlock.consume 3, overflowBlock.consume 27, .y, acTableZero, 0, fun _ => rfl, fun _ _ => rfl, rfl,
    63, 1, rfl, by decide⟩

/-- The block of V26: `10`, then (1, -1) `0111`, then EOB. -/
def nonintraBlock : State := withBlock true [0x9E]

theorem witness_decNonintra : ∃ (s v u : State) (first rest : List (Nat × Int)) (e : BlockEnd), s.quiet ∧ s.readable ∧
    ((s.streamNat 1 = 0 ∧ first = [] ∧ v = s) ∨
      (s.streamNat 1 = 1 ∧ first = [(0, if (s.consume 1).streamNat 1 = 1 then -1 else 1)] ∧ v = s.consume 2)) ∧
    Parses acTableZero first.length v rest e u :=
  ⟨nonintraBlock, nonintraBlock.consume 2, nonintraBlock.consume 8, [(0, 1)], [(1, -1)], .eob, rfl, readable_of rfl (by decide),
    .inr ⟨by decide, by decide, rfl⟩, nonintraBlock.consume 6, rfl, by decide, rfl⟩

theorem witness_decNonintra_overflow : ∃ (s u : State), s.quiet ∧ s.readable ∧ s.streamNat 1 = 0 ∧
    Parses acTableZero 0 s [(63, 1)] .overflow u :=
  ⟨withBlock true [0x07, 0xF0, 0x01, 0x04, 0x00, 0x01, 0x80], (withBlock true [0x07, 0xF0, 0x01, 0x04, 0x00, 0x01, 0x80]).consume 48,
    rfl, readable_of rfl (by decide), by decide, (withBlock true [0x07, 0xF0, 0x01, 0x04, 0x00, 0x01, 0x80]).consume 24, rfl,
    by decide, 0, 1, rfl, by decide⟩

/-- Twelve zeros. -/
theorem witness_decNonintra_invalid : ∃ (s u : State), s.quiet ∧ s.readable ∧ s.streamNat 1 = 0 ∧
    Parses acTableZero 0 s [] .invalid u :=
  ⟨withBlock true [0, 0], withBlock true [0, 0], rfl, readable_of rfl (by decide), by decide, rfl⟩

/-- The block of V38. -/
theorem witness_table_missing : ∃ s : State, s.cfg.mpeg2 = true ∧ s.cfg.intraVlcFormat = true ∧ s.acTableOne = none :=
  ⟨{ withBlock true [0x90] with cfg := ⟨true, false, true, false, 0⟩ }, rfl, rfl, rfl⟩

/-- The first bit of `000001...`, an escape, is 0. -/
theorem witness_nonintra_first : ∃ s : State, s.quiet ∧ s.streamNat 1 = 0 := ⟨withBlock true [0x07], rfl, by decide⟩

theorem witness_nonintra_ok : ∃ s t : State, s.quiet ∧ exec .decNonintra s = .next t ∧ t.stuck = false ∧ t.errCode = .ok :=
  ⟨nonintraBlock, _, rfl, eq_next_of_isNext (by decide), by decide, by decide⟩

/-- Mpeg2BlockSumIsOdd, BlockPositionsAreDistinct, DecKeepsEntriesPastTheCount, CommandsWriteOnlyTheirRegisters. -/
theorem witness_dec_ok : ∃ (i : Instr) (s t : State) (j k : Nat), (i = .decNonintra ∨ ∃ cc, i = .decIntra cc) ∧
    exec i s = .next t ∧ t.stuck = false ∧ t.errCode = .ok ∧ s.cfg.mpeg2 = true ∧ j < k ∧ k < t.blkCount.toNat :=
  ⟨.decIntra .y, intraBlock, _, 0, 2, .inr ⟨.y, rfl⟩, eq_next_of_isNext (by decide), by decide, by decide, rfl, by decide,
    by decide⟩

theorem witness_inverseQuantize : ∃ (s : State) (intra : Bool) (p : Nat) (level : Int) (t : Nat) (m : Int),
    t = (2 * level.natAbs + (if intra then 0 else 1)) *
      ((if intra then s.qmIntra else s.qmInter).getD p 0).toNat * s.qscale.toNat / 32 ∧
    m = (if s.cfg.mpeg2 then (t : Int) else if t = 0 then 0 else if t % 2 = 0 then (t : Int) - 1 else t) :=
  ⟨withBlock false [0x30], true, 1, 2, 32, 31, by decide, by decide⟩

theorem witness_mismatch_toggles : ∃ s : State, s.blkCount.toNat ≤ 64 ∧ 0 < s.blkCount.toNat ∧
    (s.entry (s.blkCount.toNat - 1)).pos = 63 := ⟨State.reset.append 63 24, by decide, by decide, by decide⟩

theorem witness_mismatch_appends : ∃ s : State, s.blkCount.toNat ≤ 63 ∧
    (s.blkCount.toNat = 0 ∨ (s.entry (s.blkCount.toNat - 1)).pos ≠ 63) := ⟨State.reset.append 0 24, by decide, by decide⟩

theorem witness_append : ∃ (s : State) (p : Nat) (v : Int), p < 64 ∧ -2048 ≤ v ∧ v ≤ 2047 ∧ s.blkCount.toNat < 64 :=
  ⟨{ State.reset with blkCount := 63 }, 63, -2048, by decide, by decide, by decide, by decide⟩

theorem witness_qmDefault : ∃ intra inter : Bool, (intra || inter) = true := ⟨false, true, by decide⟩

theorem witness_completes : ∃ (i : Instr) (s : State), s.readable ∧ (∀ cc, i = .decIntra cc → s.intraTable ≠ none) :=
  ⟨.decIntra .cb, intraBlock, readable_intraBlock, fun _ _ => by decide⟩

/-- A store to the buffer while a DEC_INTRA runs. -/
theorem witness_completes_racing : ∃ (s : State), s.readable ∧ s.earlier ≠ [] ∧ s.command = some 0x20 ∧
    s.intraTable ≠ none :=
  ⟨State.hostStore (intraBlock.withCommand 0x20) 0x1000 7,
    ⟨fun j hj => (by decide : ∀ j, j < 2 → (Memory.read (State.hostStore (intraBlock.withCommand 0x20) 0x1000 7).mem
        ((0x1000 + j) % 2 ^ 32)).isSome = true) j hj, by decide⟩, by decide, rfl, by decide⟩

theorem witness_idle : ∃ s : State, s.busy = false := ⟨State.reset, rfl⟩

theorem witness_readOnly_and_reserved : regAt 0x04C = none ∧ regAt 0x000 = some .id ∧ regAt 0x048 = some .blkMask ∧
    regAt 0x1FC = some (.list 63) ∧ regAt 0x280 = none ∧ regAt 0x3FC = none := by decide

theorem witness_cmd_write : ∃ (s : State) (w : Word) (rest : List HostEvent), s.turn = .host ∧
    s.agenda = .write 0x00C .word w :: rest ∧ s.busy = false :=
  ⟨withEvent (.write 0x00C .word 0x801), 0x801, [], rfl, rfl, rfl⟩

theorem witness_busy_write : ∃ (s : State) (offset : BitVec 10) (v : Word) (rest : List HostEvent) (r : Reg),
    s.turn = .host ∧ s.agenda = .write offset .word v :: rest ∧ offset.toNat % 4 = 0 ∧ s.busy = true ∧
    regAt offset = some r ∧
    (r ∈ [.cmd, .bsBase, .bsLen, .bsOffset, .cfg, .vertSize, .mbRows, .qscale, .mbPos, .dcPred .y, .dcPred .cb, .dcPred .cr] ∨
      ∃ m j, r = .matrix m j) :=
  ⟨{ withEvent (.write 0x27C .word 5) with command := some 0 }, 0x27C, 5, [], .matrix .inter 15, rfl, rfl, by decide, rfl,
    by decide, .inr ⟨_, _, rfl⟩⟩

theorem witness_idle_read : ∃ (s : State) (offset : BitVec 10) (rest : List HostEvent) (r : Reg), s.turn = .host ∧
    s.agenda = .read offset .word :: rest ∧ offset.toNat % 4 = 0 ∧ s.busy = false ∧ regAt offset = some r :=
  ⟨withEvent (.read 0x038 .word), 0x038, [], .dcPred .y, rfl, rfl, by decide, rfl, by decide⟩

theorem witness_busy_read : ∃ (s : State) (w : Word) (i : Instr), s.command = some w ∧ decode w = .ok i :=
  ⟨twoBytes.withCommand 0x801, 0x801, .peek 8, rfl, by decide⟩

theorem witness_busy_read_illegal : ∃ (s : State) (w : Word) (e : DecodeError), s.command = some w ∧ decode w = .error e :=
  ⟨twoBytes.withCommand 0xFF, 0xFF, .unknownOpcode, rfl, by decide⟩

theorem witness_undefined_access : ∃ (s : State) (offset : BitVec 10) (width : AccessWidth) (v : Word)
    (rest : List HostEvent), s.turn = .host ∧
    (s.agenda = .write offset width v :: rest ∨ s.agenda = .read offset width :: rest) ∧
    (width ≠ .word ∨ offset.toNat % 4 ≠ 0) :=
  ⟨withEvent (.write 0x012 .word 0), 0x012, .word, 0, [], rfl, .inl rfl, .inr (by decide)⟩

theorem witness_store : ∃ (s : State) (addr : Word) (b : Byte) (rest : List HostEvent), s.turn = .host ∧
    s.agenda = .store addr b :: rest := ⟨withEvent (.store 0x1000 7), 0x1000, 7, [], rfl, rfl⟩

theorem witness_stuck : ∃ (s t : State) (w : Word), s.command = some w ∧ s.stuck = true ∧ step s = .next t :=
  ⟨{ State.reset with command := some 0x801, stuck := true }, _, 0x801, rfl, rfl, eq_next_of_isNext (by decide)⟩

theorem inv_reset : State.reset.Inv := by
  refine ⟨rfl, ⟨by decide, fun i hi => absurd hi (by simp [State.reset]), ?_, ?_⟩, fun _ => ⟨rfl, rfl⟩⟩ <;>
    simp [State.reset]

theorem witness_invariant : ∃ s t : State, s.Inv ∧ step s = .next t :=
  ⟨State.reset, _, inv_reset, eq_next_of_isNext (by decide)⟩

end Sys2Proof.Tests
end

section
/-! SUPPORT. How a command's parts are followed through: the condition a part's outcome meets, and its rule for a sequence. -/

namespace Sys2Proof.Machine

/-- A part that goes on meets `Q` with its value and state, and one that ends the command leaves a state that meets `E`. -/
def Res.Meets {α : Type} (r : Res α) (Q : α → State → Prop) (E : State → Prop) : Prop :=
  match r with
  | .ok a t => Q a t
  | .error _ t => E t
  | .stuck => True

/-- Going on or ending, the part leaves a state that meets `P`. -/
abbrev Res.Leaves {α : Type} (r : Res α) (P : State → Prop) : Prop := r.Meets (fun _ => P) P

/-- The condition, from what the part's two ends say. -/
theorem Res.Meets.intro {α : Type} {r : Res α} {Q : α → State → Prop} {E : State → Prop}
    (hok : ∀ a t, r = .ok a t → Q a t) (herr : ∀ c t, r = .error c t → E t) : r.Meets Q E := by
  cases r with
  | ok a t => exact hok a t rfl
  | error c t => exact herr c t rfl
  | stuck => trivial

theorem Res.Meets.mono {α : Type} {r : Res α} {Q Q' : α → State → Prop} {E E' : State → Prop} (h : r.Meets Q E)
    (hQ : ∀ a t, Q a t → Q' a t) (hE : ∀ t, E t → E' t) : r.Meets Q' E' := by
  cases r with
  | ok a t => exact hQ a t h
  | error c t => exact hE t h
  | stuck => trivial

/-- The condition, with what is known of the value when the part goes on. -/
theorem Res.Meets.and_ok {α : Type} {r : Res α} {Q : α → State → Prop} {E : State → Prop} {R : α → Prop} (h : r.Meets Q E)
    (hR : ∀ a t, r = .ok a t → R a) : r.Meets (fun a t => R a ∧ Q a t) E := by
  cases r with
  | ok a t => exact ⟨hR a t rfl, h⟩
  | error c t => exact h
  | stuck => trivial

/-- The rule of a sequence: the second part starts from what the first leaves. -/
theorem Res.Meets.andThen {α β : Type} {r : Res α} {f : α → State → Res β} {Q : α → State → Prop} {R : β → State → Prop}
    {E : State → Prop} (h : r.Meets Q E) (k : ∀ a t, Q a t → (f a t).Meets R E) : (r.andThen f).Meets R E := by
  cases r with
  | ok a t => exact k a t h
  | error c t => exact h
  | stuck => trivial

/-- A command whose body leaves states that meet `P` completes one of them, or hangs. -/
theorem runCommand_leaves {body : State → Res Unit} {s t : State} {P : State → Prop}
    (hrun : runCommand body s = .next t) (h : (body s).Leaves P) : (∃ c u, P u ∧ t = u.complete c) ∨ t = s.hang := by
  rcases runCommand_cases.1 hrun with ⟨u, hb, rfl⟩ | ⟨c, u, hb, rfl⟩ | ⟨-, rfl⟩
  · rw [hb] at h; exact .inl ⟨.ok, u, h, rfl⟩
  · rw [hb] at h; exact .inl ⟨c, u, h, rfl⟩
  · exact .inr rfl

end Sys2Proof.Machine
end

section
/-! SUPPORT. Host memory and the block output (BLK_COUNT, BLK_MASK and LIST) in every part of a command that is no DEC: left
as they were. -/

namespace Sys2Proof.Machine

/-- Host memory and the block output of `t` are those of `s`. -/
structure SameOutput (s t : State) : Prop where
  mem : t.mem = s.mem
  blkCount : t.blkCount = s.blkCount
  rowMask : t.rowMask = s.rowMask
  colMask : t.colMask = s.colMask
  list : t.list = s.list

theorem SameOutput.refl (s : State) : SameOutput s s := ⟨rfl, rfl, rfl, rfl, rfl⟩

theorem SameOutput.trans {s t u : State} (h : SameOutput s t) (k : SameOutput t u) : SameOutput s u :=
  ⟨k.mem.trans h.mem, k.blkCount.trans h.blkCount, k.rowMask.trans h.rowMask, k.colMask.trans h.colMask,
    k.list.trans h.list⟩

theorem SameOutput.entry {s t : State} (h : SameOutput s t) (i : Nat) : t.entry i = s.entry i := by
  simp only [State.entry, h.list]

theorem SameOutput.lastIs63 {s t : State} (h : SameOutput s t) : t.lastIs63 = s.lastIs63 := by
  unfold State.lastIs63 State.lastIndex
  rw [h.blkCount, h.entry]

theorem SameOutput.blockInv {s t : State} (h : SameOutput s t) (hs : s.blockInv) : t.blockInv := by
  simpa only [State.blockInv, h.blkCount, h.rowMask, h.colMask, h.entry] using hs

/-! ### The updates of the commands -/

theorem SameOutput.consume (s : State) (n : Nat) : SameOutput s (s.consume n) := ⟨rfl, rfl, rfl, rfl, rfl⟩

theorem SameOutput.setResult (s : State) (v : Nat) : SameOutput s (s.setResult v) := ⟨rfl, rfl, rfl, rfl, rfl⟩

theorem SameOutput.setScan (s : State) (f : Bool) (c : Nat) : SameOutput s (s.setScan f c) := ⟨rfl, rfl, rfl, rfl, rfl⟩

theorem SameOutput.setQscale (s : State) (v : Nat) : SameOutput s (s.setQscale v) := ⟨rfl, rfl, rfl, rfl, rfl⟩

theorem SameOutput.dcReset (s : State) : SameOutput s s.dcReset := ⟨rfl, rfl, rfl, rfl, rfl⟩

theorem SameOutput.qmDefaults (intra inter : Bool) (s : State) : SameOutput s (qmDefaults intra inter s) :=
  ⟨rfl, rfl, rfl, rfl, rfl⟩

theorem SameOutput.complete (s : State) (c : ResultCode) : SameOutput s (s.complete c) := ⟨rfl, rfl, rfl, rfl, rfl⟩

theorem SameOutput.hang (s : State) : SameOutput s s.hang := ⟨rfl, rfl, rfl, rfl, rfl⟩

theorem SameOutput.align (s : State) : SameOutput s s.align := ⟨by simp, by simp, by simp, by simp, by simp⟩

theorem SameOutput.enterRow (s : State) (row : Nat) : SameOutput s (s.enterRow row) :=
  ⟨by simp, by simp, by simp, by simp, by simp⟩

theorem SameOutput.setDcPred (s : State) (c : Component) (v : BitVec 16) : SameOutput s (s.setDcPred c v) :=
  ⟨by simp, by simp, by simp, by simp, by simp⟩

theorem SameOutput.setMatrix (s : State) (m : WeightSel) (q : Vector Byte 64) : SameOutput s (s.setMatrix m q) :=
  ⟨by simp, by simp, by simp, by simp, by simp⟩

theorem SameOutput.setWeight (s : State) (m : WeightSel) (p : Nat) (b : Byte) : SameOutput s (s.setWeight m p b) :=
  .setMatrix s m _

theorem Moves.sameOutput {s t : State} (h : Moves s t) : SameOutput s t := by
  rcases h with rfl | ⟨n, rfl⟩
  · exact .refl t
  · exact .consume s n

/-! ### The parts of the commands -/

/-- A sequence of two parts that each leave the output alone leaves it alone. -/
theorem SameOutput.andThen {α β : Type} {s : State} {r : Res α} {f : α → State → Res β} (h : r.Leaves (SameOutput s))
    (k : ∀ a t, (f a t).Leaves (SameOutput t)) : (r.andThen f).Leaves (SameOutput s) :=
  Res.Meets.andThen h fun a t ht => (k a t).mono (fun _ _ => ht.trans) (fun _ => ht.trans)

/-- The same for a part that starts from an update of the state. -/
theorem SameOutput.leaves_of {α : Type} {s t : State} {r : Res α} (h : SameOutput s t) (k : r.Leaves (SameOutput t)) :
    r.Leaves (SameOutput s) := k.mono (fun _ _ => h.trans) (fun _ => h.trans)

theorem State.get_leaves (s : State) (n : Nat) : (s.get n).Leaves (SameOutput s) :=
  .intro (fun _ _ h => (Moves.of_get h).sameOutput) fun c t h => absurd h (s.get_ne_error t n c)

theorem ifLegal_leaves {legal : Prop} [Decidable legal] {body : State → Res Unit} {s : State}
    (h : (body s).Leaves (SameOutput s)) : (ifLegal legal body s).Leaves (SameOutput s) := by
  unfold ifLegal
  split
  · exact h
  · exact SameOutput.refl s

theorem peekBody_leaves (n : Nat) (s : State) : (peekBody n s).Leaves (SameOutput s) := by
  unfold peekBody
  split
  · trivial
  · exact .setResult s _

theorem getBody_leaves (n : Nat) (s : State) : (getBody n s).Leaves (SameOutput s) :=
  SameOutput.andThen (s.get_leaves n) fun v t => SameOutput.setResult t v

theorem slicePosition_leaves (s : State) : (slicePosition s).Leaves (SameOutput s) := by
  refine SameOutput.leaves_of (.consume s 24) (SameOutput.andThen (State.get_leaves _ 8) fun xx t => ?_)
  split
  · exact SameOutput.andThen (t.get_leaves 3) fun _ u => SameOutput.refl u
  · exact SameOutput.refl t

theorem extraLoop_leaves (fuel : Nat) (s : State) : (extraLoop fuel s).Leaves (SameOutput s) := by
  induction fuel generalizing s with
  | zero => exact SameOutput.andThen (s.get_leaves 1) fun _ t => SameOutput.refl t
  | succ fuel ih =>
    refine SameOutput.andThen (s.get_leaves 1) fun b t => ?_
    split
    · exact SameOutput.leaves_of (.consume t 8) (ih _)
    · exact SameOutput.refl t

theorem sliceHeader_leaves (s : State) : (sliceHeader s).Leaves (SameOutput s) := by
  refine SameOutput.andThen (slicePosition_leaves s) fun pos t => SameOutput.leaves_of (.setResult t pos) ?_
  dsimp only
  split
  · refine SameOutput.leaves_of (.enterRow _ _) (SameOutput.andThen (State.get_leaves _ 5) fun q u => ?_)
    exact SameOutput.leaves_of (.setQscale u _) (SameOutput.andThen (extraLoop_leaves _ _) fun _ w => SameOutput.dcReset w)
  · exact SameOutput.refl _

theorem scanLoop_leaves (probe : State → Probe) (fuel : Nat) (s : State) :
    (scanLoop probe fuel s).Leaves (SameOutput s) := by
  induction fuel generalizing s with
  | zero => exact .setScan s false 0
  | succ fuel ih =>
    unfold scanLoop
    split
    · exact .setScan s false 0
    · split
      · exact .setScan s true _
      · trivial
      · exact SameOutput.leaves_of (.consume s 8) (ih _)

theorem scan_leaves (probe : State → Probe) (s : State) : (scan probe s).Leaves (SameOutput s) :=
  SameOutput.leaves_of (.align s) (scanLoop_leaves probe _ _)

theorem loadWeights_leaves (m : WeightSel) (ps : List Nat) (s : State) : (loadWeights m ps s).Leaves (SameOutput s) := by
  induction ps generalizing s with
  | nil => exact SameOutput.refl s
  | cons p ps ih => exact SameOutput.andThen (s.get_leaves 8) fun b t => SameOutput.leaves_of (.setWeight t m p _) (ih _)

end Sys2Proof.Machine
end

section
/-! SUPPORT. The block output of a DEC command (42_vld.md R181-R191): what one Append and the mismatch control do to LIST and to
the masks, and what the command's loop keeps. -/

namespace Sys2Proof.Machine

/-! ### Entries of LIST -/

theorem getD_setIfInBounds {α : Type} {n : Nat} (xs : Vector α n) (i j : Nat) (x d : α) :
    (xs.setIfInBounds i x).getD j d = if i = j ∧ i < n then x else xs.getD j d := by
  have getD_eq : ∀ ys : Vector α n, ys.getD j d = ys[j]?.getD d := fun ys => by
    simp [Vector.getD, Array.getD_eq_getD_getElem?]
  rw [getD_eq, getD_eq, Vector.getElem?_setIfInBounds]
  by_cases hij : i = j
  · subst hij
    by_cases hi : i < n <;> simp [hi]
  · simp [hij]

/-- Append writes the entry at BLK_COUNT (42 R181). -/
theorem State.entry_append_same {s : State} {p : Nat} {v : Int} (h : s.blkCount.toNat < 64) :
    (s.append p v).entry s.blkCount.toNat = ⟨BitVec.ofInt 16 v, BitVec.ofNat 6 p⟩ := by
  simp [State.entry, getD_setIfInBounds, h]

theorem State.entry_append_of_ne {s : State} {p : Nat} {v : Int} {j : Nat} (h : j ≠ s.blkCount.toNat) :
    (s.append p v).entry j = s.entry j := by
  simp [State.entry, getD_setIfInBounds, Ne.symm h]

theorem State.append_blkCount_toNat {s : State} {p : Nat} {v : Int} (h : s.blkCount.toNat < 64) :
    (s.append p v).blkCount.toNat = s.blkCount.toNat + 1 := by
  rw [State.append_blkCount, BitVec.toNat_add, Nat.mod_eq_of_lt (by simp; omega)]
  rfl

theorem State.entry_toggleLast_same {s : State} (h : s.lastIndex < 64) :
    s.toggleLast.entry s.lastIndex = ⟨(s.entry s.lastIndex).value ^^^ 1, (s.entry s.lastIndex).pos⟩ := by
  simp only [State.entry, State.toggleLast_list, getD_setIfInBounds, h, and_self, if_true]

theorem State.entry_toggleLast_of_ne {s : State} {j : Nat} (h : j ≠ s.lastIndex) : s.toggleLast.entry j = s.entry j := by
  simp [State.entry, getD_setIfInBounds, Ne.symm h]

/-- The mismatch control's toggle moves no entry. -/
@[simp] theorem State.pos_toggleLast (s : State) (j : Nat) : (s.toggleLast.entry j).pos = (s.entry j).pos := by
  by_cases h : j = s.lastIndex
  · by_cases hb : s.lastIndex < 64
    · rw [h, State.entry_toggleLast_same hb]
    · simp [State.entry, getD_setIfInBounds, hb]
  · rw [State.entry_toggleLast_of_ne h]

theorem State.lastIs63_iff {s : State} : s.lastIs63 = true ↔ 0 < s.blkCount.toNat ∧ (s.entry s.lastIndex).pos = 63 := by
  simp [State.lastIs63]

/-- After an Append at position 63 the last entry holds it. -/
theorem State.lastIs63_append {s : State} {v : Int} (h : s.blkCount.toNat < 64) : (s.append 63 v).lastIs63 = true := by
  have hlast : (s.append 63 v).lastIndex = s.blkCount.toNat := by
    simp only [State.lastIndex, State.append_blkCount_toNat h]; omega
  rw [State.lastIs63_iff, hlast, State.entry_append_same h, State.append_blkCount_toNat h]
  exact ⟨by omega, rfl⟩

/-! ### Values and positions -/

/-- A value of 12 bits (10 R34). -/
def Is12Bit (v : Int) : Prop := -2048 ≤ v ∧ v ≤ 2047

theorem is12Bit_clipS12 (v : Int) : Is12Bit (clipS12 v) := by
  unfold Is12Bit clipS12; omega

theorem State.is12Bit_iq (s : State) (level : Int) (p : Nat) (intra : Bool) : Is12Bit (s.iq level p intra) :=
  is12Bit_clipS12 _

theorem toInt_ofInt_of_is12Bit {v : Int} (h : Is12Bit v) : (BitVec.ofInt 16 v).toInt = v := by
  unfold Is12Bit at h
  rw [BitVec.toInt_ofInt]
  exact Int.bmod_eq_of_le (by omega) (by omega)

/-- Toggling the low bit keeps a value in the 12-bit range: the range is made of pairs that differ in that bit. -/
theorem is12Bit_xor_one {x : BitVec 16} (h : Is12Bit x.toInt) : Is12Bit (x ^^^ 1).toInt := by
  have hhalf : (x ^^^ 1).toNat / 2 = x.toNat / 2 := by
    rw [BitVec.toNat_xor, Nat.xor_div_two]; simp
  unfold Is12Bit at *
  rw [BitVec.toInt_eq_toNat_cond] at *
  have := x.isLt
  have := (x ^^^ 1).isLt
  split at h <;> split <;> omega

/-- Both scans name raster positions, and end at position 63 (30 R110, R111). -/
theorem State.scanTable_lt (s : State) (n : Nat) : s.scanTable.getD n 0 < 64 := by
  have hall : ∀ p ∈ s.scanTable, p < 64 := by
    unfold State.scanTable
    split <;> decide
  rw [List.getD_eq_getElem?_getD]
  rcases hn : s.scanTable[n]? with _ | p
  · simp
  · exact hall p (List.mem_of_getElem? hn)

theorem State.scanTable_63 (s : State) : s.scanTable.getD 63 0 = 63 := by
  unfold State.scanTable
  split <;> rfl

/-! ### The masks name the entries -/

/-- The bit set by a mask's update, and no other. -/
theorem getLsbD_or_twoPow {mask : BitVec 8} {k j : Nat} (hk : k < 8) :
    (mask ||| BitVec.twoPow 8 k).getLsbD j = true ↔ mask.getLsbD j = true ∨ k = j := by
  simp [BitVec.getLsbD_twoPow, hk]

/-- A mask names the places `place` gives the positions of the first `count` entries (10 R33). -/
def MaskNames (mask : BitVec 8) (place : Nat → Nat) (count : Nat) (entry : Nat → Entry) : Prop :=
  ∀ v, v < 8 → (mask.getLsbD v = true ↔ ∃ i, i < count ∧ place (entry i).pos.toNat = v)

/-- One more entry, and its bit set in the mask. -/
theorem MaskNames.append {mask : BitVec 8} {place : Nat → Nat} {count : Nat} {entry entry' : Nat → Entry} {p : Nat}
    (h : MaskNames mask place count entry) (hold : ∀ i, i < count → entry' i = entry i)
    (hnew : (entry' count).pos.toNat = p) (hp : place p < 8) :
    MaskNames (mask ||| BitVec.twoPow 8 (place p)) place (count + 1) entry' := by
  intro v hv
  rw [getLsbD_or_twoPow hp, h v hv]
  constructor
  · rintro (⟨i, hi, hiv⟩ | hpv)
    · exact ⟨i, by omega, by rw [hold i hi]; exact hiv⟩
    · exact ⟨count, by omega, by rw [hnew]; exact hpv⟩
  · rintro ⟨i, hi, hiv⟩
    rcases Nat.lt_succ_iff_lt_or_eq.1 hi with hi | rfl
    · exact .inl ⟨i, hi, by rw [← hold i hi]; exact hiv⟩
    · exact .inr (by rw [← hnew]; exact hiv)

/-- Setting the bit of an entry that is there changes no mask. -/
theorem MaskNames.or_self {mask : BitVec 8} {place : Nat → Nat} {count : Nat} {entry : Nat → Entry} {i : Nat}
    (h : MaskNames mask place count entry) (hi : i < count) (hp : place (entry i).pos.toNat < 8) :
    MaskNames (mask ||| BitVec.twoPow 8 (place (entry i).pos.toNat)) place count entry := by
  intro v hv
  rw [getLsbD_or_twoPow hp, h v hv, or_iff_left_of_imp]
  exact fun hiv => ⟨i, hi, hiv⟩

theorem State.blockInv_iff {s : State} : s.blockInv ↔ s.blkCount.toNat ≤ 64 ∧
    (∀ i, i < s.blkCount.toNat → Is12Bit (s.entry i).value.toInt) ∧
    MaskNames s.rowMask (· / 8) s.blkCount.toNat s.entry ∧ MaskNames s.colMask (· % 8) s.blkCount.toNat s.entry := Iff.rfl

/-- An empty block output is consistent. -/
theorem State.blockInv_of_empty {s : State} (hc : s.blkCount = 0) (hrow : s.rowMask = 0) (hcol : s.colMask = 0) :
    s.blockInv := by
  rw [State.blockInv_iff, hc, hrow, hcol]
  refine ⟨by decide, fun i hi => absurd hi (by simp), ?_, ?_⟩ <;> simp [MaskNames]

/-- An Append of a 12-bit value at a raster position keeps the block output consistent while LIST has room. -/
theorem State.blockInv_append {s : State} {p : Nat} {v : Int} (h : s.blockInv) (hroom : s.blkCount.toNat < 64)
    (hp : p < 64) (hv : Is12Bit v) : (s.append p v).blockInv := by
  obtain ⟨-, hval, hrow, hcol⟩ := State.blockInv_iff.1 h
  have hold : ∀ i, i < s.blkCount.toNat → (s.append p v).entry i = s.entry i :=
    fun i hi => State.entry_append_of_ne (by omega)
  have hnew := State.entry_append_same (p := p) (v := v) hroom
  have hpos : ((s.append p v).entry s.blkCount.toNat).pos.toNat = p := by
    rw [hnew]; exact Nat.mod_eq_of_lt hp
  rw [State.blockInv_iff, State.append_blkCount_toNat hroom]
  refine ⟨by omega, fun i hi => ?_, hrow.append hold hpos (by omega), hcol.append hold hpos (by omega)⟩
  rcases Nat.lt_succ_iff_lt_or_eq.1 hi with hi | rfl
  · rw [hold i hi]; exact hval i hi
  · rw [hnew, toInt_ofInt_of_is12Bit hv]; exact hv

/-- The mismatch control's toggle keeps the block output consistent: position 63 is in the masks already. -/
theorem State.blockInv_toggleLast {s : State} (h : s.blockInv) (h63 : s.lastIs63 = true) : s.toggleLast.blockInv := by
  obtain ⟨hcount, hval, hrow, hcol⟩ := State.blockInv_iff.1 h
  obtain ⟨hpos, hlast⟩ := State.lastIs63_iff.1 h63
  have hlt : s.lastIndex < s.blkCount.toNat := by unfold State.lastIndex; omega
  have hnames : ∀ {mask : BitVec 8} {place : Nat → Nat}, MaskNames mask place s.blkCount.toNat s.entry →
      MaskNames mask place s.blkCount.toNat s.toggleLast.entry := fun hm => by
    simpa only [MaskNames, State.pos_toggleLast] using hm
  rw [State.blockInv_iff, State.toggleLast_blkCount]
  refine ⟨hcount, fun i hi => ?_, hnames ?_, hnames ?_⟩
  · by_cases hi' : i = s.lastIndex
    · rw [hi', State.entry_toggleLast_same (by omega)]
      exact is12Bit_xor_one (hval _ hlt)
    · rw [State.entry_toggleLast_of_ne hi']
      exact hval i hi
  · have := hrow.or_self hlt (by rw [hlast]; decide)
    rwa [hlast] at this
  · have := hcol.or_self hlt (by rw [hlast]; decide)
    rwa [hlast] at this

/-! ### What a DEC command keeps -/

/-- What a DEC command that started in `s` has made of host memory and of the block output: the output is consistent, and LIST
holds at BLK_COUNT and above what it held. -/
structure BlockOutput (s t : State) : Prop where
  mem : t.mem = s.mem
  inv : t.blockInv
  kept : ∀ j, t.blkCount.toNat ≤ j → t.entry j = s.entry j

/-- The same before EOB, at scan index `n` (10 R38): there are at most as many entries as scan indices passed, and when all
64 are, the last entry holds position 63. -/
structure Building (s : State) (n : Nat) (t : State) : Prop extends BlockOutput s t where
  count : t.blkCount.toNat ≤ n
  index : n ≤ 64
  full : n = 64 → t.lastIs63 = true

theorem BlockOutput.of_sameOutput {s t u : State} (h : BlockOutput s t) (k : SameOutput t u) : BlockOutput s u where
  mem := k.mem.trans h.mem
  inv := k.blockInv h.inv
  kept j hj := (k.entry j).trans (h.kept j (by rwa [k.blkCount] at hj))

theorem Building.of_sameOutput {s t u : State} {n : Nat} (h : Building s n t) (k : SameOutput t u) : Building s n u where
  toBlockOutput := h.toBlockOutput.of_sameOutput k
  count := by rw [k.blkCount]; exact h.count
  index := h.index
  full hn := by rw [k.lastIs63]; exact h.full hn

theorem Building.clearOutput (s : State) : Building s 0 s.clearOutput where
  mem := rfl
  inv := State.blockInv_of_empty rfl rfl rfl
  kept _ _ := rfl
  count := le_refl _
  index := by decide
  full hn := absurd hn (by decide)

theorem BlockOutput.append {s t : State} {p : Nat} {v : Int} (h : BlockOutput s t) (hroom : t.blkCount.toNat < 64)
    (hp : p < 64) (hv : Is12Bit v) : BlockOutput s (t.append p v) where
  mem := h.mem
  inv := State.blockInv_append h.inv hroom hp hv
  kept j hj := by
    rw [State.append_blkCount_toNat hroom] at hj
    rw [State.entry_append_of_ne (by omega), h.kept j (by omega)]

/-- An Append for scan index `m`, which lies at or past the index reached. -/
theorem Building.append {s t : State} {n m p : Nat} {v : Int} (h : Building s n t) (hnm : n ≤ m) (hm : m ≤ 63) (hp : p < 64)
    (hlast : m = 63 → p = 63) (hv : Is12Bit v) : Building s (m + 1) (t.append p v) := by
  have hcount := h.count
  have hroom : t.blkCount.toNat < 64 := by omega
  refine ⟨h.toBlockOutput.append hroom hp hv, ?_, by omega, fun h64 => ?_⟩
  · rw [State.append_blkCount_toNat hroom]; omega
  · rw [hlast (by omega)]; exact State.lastIs63_append hroom

theorem BlockOutput.toggleLast {s t : State} (h : BlockOutput s t) (h63 : t.lastIs63 = true) :
    BlockOutput s t.toggleLast where
  mem := h.mem
  inv := State.blockInv_toggleLast h.inv h63
  kept j hj := by
    obtain ⟨hpos, -⟩ := State.lastIs63_iff.1 h63
    rw [State.toggleLast_blkCount] at hj
    rw [State.entry_toggleLast_of_ne (by unfold State.lastIndex; omega), h.kept j hj]

/-- The mismatch control has room for its entry: a full LIST ends at position 63 (43 R228, R229). -/
theorem Building.mismatch {s t : State} {n : Nat} (h : Building s n t) (par : Bool) : BlockOutput s (t.mismatch par) := by
  unfold State.mismatch
  split
  · exact h.toBlockOutput
  · split
    next h63 => exact h.toBlockOutput.toggleLast h63
    next h63 =>
      have hn : n ≠ 64 := fun hn => h63 (h.full hn)
      have := h.count
      have := h.index
      exact h.toBlockOutput.append (by omega) (by decide) (by unfold Is12Bit; decide)

theorem Building.place {s t : State} {g : Progress} (h : Building s g.n t) (intra : Bool) (run : Nat) (level : Int) :
    (place intra run level g t).Meets (fun g u => Building s g.n u) (BlockOutput s) := by
  unfold Machine.place
  dsimp only
  split
  · exact h.toBlockOutput
  · refine h.append (by omega) (by omega) (t.scanTable_lt _) (fun h63 => ?_) (t.is12Bit_iq level _ intra)
    rw [h63]; exact t.scanTable_63

/-! ### The parts of a DEC command -/

theorem State.vlc_leaves {α : Type} (s : State) (table : List (VlcRow α)) : (s.vlc table).Leaves (SameOutput s) :=
  .intro (fun _ _ h => (Moves.of_vlc h).sameOutput) fun c t h => absurd h (s.vlc_ne_error t table c)

theorem escape_leaves (s : State) : (escape s).Leaves (SameOutput s) := by
  unfold escape
  split
  · exact SameOutput.andThen (s.get_leaves 6) fun _ t => SameOutput.andThen (t.get_leaves 12) fun _ u => SameOutput.refl u
  · refine SameOutput.andThen (s.get_leaves 6) fun _ t => SameOutput.andThen (t.get_leaves 8) fun b1 u => ?_
    split
    · exact SameOutput.andThen (u.get_leaves 8) fun _ w => SameOutput.refl w
    · exact SameOutput.refl u

theorem acSymbol_leaves (table : AcTable) (s : State) : (acSymbol table s).Leaves (SameOutput s) := by
  refine SameOutput.andThen (s.vlc_leaves table) fun sym t => ?_
  rcases sym with _ | _ | _ | ⟨run, a⟩
  · exact SameOutput.refl t
  · exact SameOutput.refl t
  · exact escape_leaves t
  · exact SameOutput.andThen (t.get_leaves 1) fun _ u => SameOutput.refl u

theorem dcDiff_leaves (cc : Component) (s : State) : (dcDiff cc s).Leaves (SameOutput s) := by
  refine SameOutput.andThen (s.vlc_leaves _) fun size t => ?_
  rcases size with _ | _ | size
  · exact SameOutput.refl t
  · exact SameOutput.refl t
  · exact SameOutput.andThen (t.get_leaves _) fun _ u => SameOutput.refl u

theorem intraDc_leaves (cc : Component) (s : State) : (intraDc cc s).Leaves (SameOutput s) :=
  SameOutput.andThen (dcDiff_leaves cc s) fun _ t => SameOutput.setDcPred t cc _

/-- The DC coefficient is clipped to 12 bits (42 R172). -/
theorem intraDc_is12Bit {cc : Component} {s t : State} {dc : Int} (h : intraDc cc s = .ok dc t) : Is12Bit dc := by
  obtain ⟨diff, u, -, h⟩ := Res.andThen_eq_ok.1 h
  cases h
  exact is12Bit_clipS12 _

/-- A part that leaves the output alone, in a DEC command. -/
theorem Building.leaves {α : Type} {s t : State} {n : Nat} {r : Res α} (h : Building s n t) (k : r.Leaves (SameOutput t)) :
    r.Meets (fun _ => Building s n) (BlockOutput s) :=
  k.mono (fun _ _ => h.of_sameOutput) fun _ => h.toBlockOutput.of_sameOutput

theorem Building.firstNonIntra {s t : State} {g : Progress} (h : Building s g.n t) :
    (firstNonIntra g t).Meets (fun g u => Building s g.n u) (BlockOutput s) := by
  unfold Machine.firstNonIntra
  split
  · trivial
  · split
    · exact ((h.of_sameOutput (.consume t 1)).leaves (State.get_leaves _ 1)).andThen fun sign u hu => hu.place false 0 _
    · exact h

/-- Every turn of the loop places one coefficient at most, at a scan index not used before (42 R192). -/
theorem Building.acLoop {s t : State} {g : Progress} (h : Building s g.n t) (table : AcTable) (intra : Bool) (fuel : Nat) :
    (acLoop table intra fuel g t).Meets (fun g u => Building s g.n u) (BlockOutput s) := by
  induction fuel generalizing g t with
  | zero => exact h.toBlockOutput
  | succ fuel ih =>
    refine (h.leaves (acSymbol_leaves table t)).andThen fun sym u hu => ?_
    rcases sym with _ | _ | ⟨run, level⟩
    · exact hu.toBlockOutput
    · exact hu
    · exact (hu.place intra run level).andThen fun g w hw => ih hw

theorem Building.finishBlock {s t : State} {g : Progress} (h : Building s g.n t) :
    (finishBlock g t).Leaves (BlockOutput s) := by
  unfold Machine.finishBlock
  split
  · exact h.mismatch g.par
  · exact h.toBlockOutput

theorem decIntra_leaves (table : AcTable) (cc : Component) (s : State) :
    (decIntra table cc s).Leaves (BlockOutput s) := by
  have hdc := ((Building.clearOutput s).leaves (intraDc_leaves cc s.clearOutput)).and_ok fun _ _ => intraDc_is12Bit
  refine hdc.andThen fun dc t ⟨hv, ht⟩ => ?_
  have happend : Building s 1 (t.append 0 dc) := ht.append (m := 0) (le_refl _) (by decide) (by decide) (by decide) hv
  exact (happend.acLoop (g := ⟨1, _⟩) table true maxSymbols).andThen fun _ _ hu => hu.finishBlock

theorem decNonintra_leaves (s : State) : (decNonintra s).Leaves (BlockOutput s) :=
  ((Building.clearOutput s).firstNonIntra (g := ⟨0, false⟩)).andThen fun _ _ ht =>
    (ht.acLoop acTableZero false maxSymbols).andThen fun _ _ hu => hu.finishBlock

end Sys2Proof.Machine
end

section
/-! SUPPORT. One step of the machine, by cases: how a command ends, what a host access does, and the invariant through both
(10_state.md R33, R34). -/

namespace Sys2Proof.Machine

/-! ### How a command ends -/

/-- A DEC command completes with a consistent block output, or hangs. -/
theorem exec_dec_cases {i : Instr} {s t : State} (hi : i = .decNonintra ∨ ∃ cc, i = .decIntra cc)
    (h : exec i s = .next t) : (∃ c u, BlockOutput s u ∧ t = u.complete c) ∨ t = s.hang := by
  rcases hi with rfl | ⟨cc, rfl⟩
  · exact runCommand_leaves h (decNonintra_leaves s)
  · change execDecIntra cc s = .next t at h
    unfold execDecIntra at h
    split at h
    · cases h
    next table _ => exact runCommand_leaves h (decIntra_leaves table cc s)

/-- Every other command completes with the block output left alone, or hangs. -/
theorem exec_other_cases {i : Instr} {s t : State} (hi : ¬(i = .decNonintra ∨ ∃ cc, i = .decIntra cc))
    (h : exec i s = .next t) : (∃ c u, SameOutput s u ∧ t = u.complete c) ∨ t = s.hang := by
  cases i with
  | nop => exact runCommand_leaves (body := fun s => .ok () s) h (SameOutput.refl s)
  | peek n => exact runCommand_leaves h (ifLegal_leaves (peekBody_leaves n s))
  | consume n => exact runCommand_leaves h (ifLegal_leaves (SameOutput.consume s n))
  | get n => exact runCommand_leaves h (ifLegal_leaves (getBody_leaves n s))
  | align => exact runCommand_leaves (body := fun s => .ok () s.align) h (SameOutput.align s)
  | scanAny => exact runCommand_leaves h (scan_leaves probeAny s)
  | scanCode xx => exact runCommand_leaves h (scan_leaves (probeCode xx) s)
  | sliceHdr => exact runCommand_leaves h (sliceHeader_leaves s)
  | dcReset => exact runCommand_leaves (body := fun s => .ok () s.dcReset) h (SameOutput.dcReset s)
  | decIntra cc => exact absurd (.inr ⟨cc, rfl⟩) hi
  | decNonintra => exact absurd (.inl rfl) hi
  | qmDefault intra inter => exact runCommand_leaves h (ifLegal_leaves (SameOutput.qmDefaults intra inter s))
  | qmLoad m => exact runCommand_leaves h (loadWeights_leaves m zigzag s)

/-! ### Whose move it is -/

theorem step_of_block {s : State} (h : s.turn = .block ∨ s.agenda = []) : step s = blockMove s := by
  unfold step nextMove
  rcases h with h | h
  · rw [h]
  · cases s.turn <;> simp only [h]

theorem step_of_event {s : State} {e : HostEvent} {rest : List HostEvent} (hturn : s.turn = .host)
    (hagenda : s.agenda = e :: rest) : step s = hostMove e { s with agenda := rest } := by
  simp only [step, nextMove, hturn, hagenda]

/-- A step is the block's turn, or the first event of the agenda. -/
theorem step_cases (s : State) : step s = blockMove s ∨
    ∃ e rest, s.agenda = e :: rest ∧ step s = hostMove e { s with agenda := rest } := by
  obtain hturn | hturn : s.turn = .block ∨ s.turn = .host := by cases s.turn <;> simp
  · exact .inl (step_of_block (.inl hturn))
  · rcases hagenda : s.agenda with _ | ⟨e, rest⟩
    · exact .inl (step_of_block (.inr hagenda))
    · exact .inr ⟨e, rest, rfl, step_of_event hturn hagenda⟩

/-- An aligned 32-bit access has its effect (20 R67). -/
theorem ifDefined_word {offset : BitVec 10} (h : offset.toNat % 4 = 0) (t : State) :
    ifDefined offset .word t = .next t := by
  simp [ifDefined, accessDefined, h]

/-- An access that is not refused has its effect. -/
theorem ifDefined_eq_next {offset : BitVec 10} {width : AccessWidth} {t u : State} (h : ifDefined offset width t = .next u) :
    u = t := by
  unfold ifDefined at h
  split at h <;> cases h
  rfl

/-! ### The invariant -/

/-- What a host access other than a reset and a store does: host memory and the block output stay, and so do the model's own
fields for the command in progress, which the access does not end. -/
structure HostUpdate (s t : State) : Prop extends SameOutput s t where
  stuck : t.stuck = s.stuck
  earlier : t.earlier = s.earlier
  command : t.command = none → s.command = none

theorem State.Inv.wf_mem {s : State} (h : s.Inv) : Memory.wf s.mem = true := h.1

theorem State.Inv.blockInv {s : State} (h : s.Inv) : s.blockInv := h.2.1

theorem State.Inv.hostUpdate {s t : State} (h : s.Inv) (k : HostUpdate s t) : t.Inv := by
  obtain ⟨hmem, hblock, hidle⟩ := h
  refine ⟨by rwa [k.mem], k.blockInv hblock, fun hcmd => ?_⟩
  rw [k.stuck, k.earlier]
  exact hidle (k.command hcmd)

theorem State.Inv.complete {s : State} (hmem : Memory.wf s.mem = true) (hblock : s.blockInv) (c : ResultCode) :
    (s.complete c).Inv := ⟨hmem, (SameOutput.complete s c).blockInv hblock, fun _ => ⟨rfl, rfl⟩⟩

theorem State.Inv.hang {s : State} (h : s.Inv) (hcmd : s.command ≠ none) : s.hang.Inv := by
  obtain ⟨hmem, hblock, -⟩ := h
  exact ⟨hmem, (SameOutput.hang s).blockInv hblock, fun hnone => absurd hnone hcmd⟩

theorem State.Inv.doReset {s : State} (h : s.Inv) : s.doReset.Inv :=
  ⟨h.wf_mem, State.blockInv_of_empty rfl rfl rfl, fun _ => ⟨rfl, rfl⟩⟩

theorem State.Inv.hostStore {s : State} (h : s.Inv) (addr : Word) (b : Byte) : (s.hostStore addr b).Inv := by
  obtain ⟨hmem, hblock, hidle⟩ := h
  refine ⟨Memory.write_wf hmem addr.isLt, hblock, fun hcmd => ?_⟩
  rw [State.hostStore_command] at hcmd
  simpa [State.busy, hcmd] using hidle hcmd

theorem HostUpdate.writeStatus (s : State) (v : Word) : HostUpdate s (s.writeStatus v) :=
  ⟨⟨rfl, rfl, rfl, rfl, rfl⟩, rfl, rfl, id⟩

theorem HostUpdate.dropWrite (s : State) : HostUpdate s s.dropWrite := ⟨⟨rfl, rfl, rfl, rfl, rfl⟩, rfl, rfl, id⟩

theorem HostUpdate.setDcPred (s : State) (c : Component) (v : BitVec 16) : HostUpdate s (s.setDcPred c v) :=
  ⟨.setDcPred s c v, by simp, by simp, by simp⟩

theorem HostUpdate.setMatrix (s : State) (m : WeightSel) (q : Vector Byte 64) : HostUpdate s (s.setMatrix m q) :=
  ⟨.setMatrix s m q, by simp, by simp, by simp⟩

theorem State.Inv.writeCtrl {s : State} (h : s.Inv) (v : Word) : (s.writeCtrl v).Inv := by
  unfold State.writeCtrl
  split
  · exact h.doReset
  · exact h

/-- A write while idle changes registers that the invariant does not speak of, starts a command, or resets the block. -/
theorem State.Inv.writeIdle {s : State} (h : s.Inv) (r : Reg) (v : Word) : (s.writeIdle r v).Inv := by
  cases r with
  | ctrl => exact h.writeCtrl v
  | status => exact h.hostUpdate (.writeStatus s v)
  | cmd => exact h.hostUpdate ⟨⟨rfl, rfl, rfl, rfl, rfl⟩, rfl, rfl, fun hnone => nomatch hnone⟩
  | dcPred c => exact h.hostUpdate (.setDcPred s c _)
  | matrix m j => exact h.hostUpdate (.setMatrix s m _)
  | id | result | bsMax | blkCount | blkMask | list _ => exact h
  | _ => exact h.hostUpdate ⟨⟨rfl, rfl, rfl, rfl, rfl⟩, rfl, rfl, id⟩

theorem State.Inv.writeBusy {s : State} (h : s.Inv) (r : Reg) (v : Word) : (s.writeBusy r v).Inv := by
  cases r with
  | ctrl => exact h.writeCtrl v
  | status => exact h.hostUpdate (.writeStatus s v)
  | id | result | bsMax | blkCount | blkMask | list _ => exact h
  | _ => exact h.hostUpdate (.dropWrite s)

theorem State.Inv.hostWrite {s : State} (h : s.Inv) (offset : BitVec 10) (v : Word) : (s.hostWrite offset v).Inv := by
  unfold State.hostWrite
  split
  · exact h
  · unfold State.writeReg
    split
    · exact h.writeBusy _ v
    · exact h.writeIdle _ v

theorem State.Inv.poll {s : State} (h : s.Inv) (seen : Bool) (again : HostEvent) : (poll seen again s).Inv := by
  unfold Machine.poll
  split
  · exact h
  · exact h.hostUpdate ⟨⟨rfl, rfl, rfl, rfl, rfl⟩, rfl, rfl, id⟩

/-- Every event of the host and the platform keeps the invariant. -/
theorem State.Inv.hostMove {e : HostEvent} {s t : State} (h : s.Inv) (hmove : hostMove e s = .next t) : t.Inv := by
  cases e with
  | write offset width v => rw [ifDefined_eq_next hmove]; exact h.hostWrite offset v
  | read offset width => rw [ifDefined_eq_next hmove]; exact h.hostUpdate ⟨⟨rfl, rfl, rfl, rfl, rfl⟩, rfl, rfl, id⟩
  | store addr b => cases hmove; exact h.hostStore addr b
  | waitIdle => cases hmove; exact h.poll _ _
  | waitDone => cases hmove; exact h.poll _ _
  | yield => cases hmove; exact h.hostUpdate ⟨⟨rfl, rfl, rfl, rfl, rfl⟩, rfl, rfl, id⟩
  | reset => cases hmove; exact h.doReset

/-- Every command keeps the invariant. -/
theorem State.Inv.exec {i : Instr} {s t : State} (h : s.Inv) (hcmd : s.command ≠ none) (hexec : exec i s = .next t) :
    t.Inv := by
  by_cases hi : i = .decNonintra ∨ ∃ cc, i = .decIntra cc
  · rcases exec_dec_cases hi hexec with ⟨c, u, hu, rfl⟩ | rfl
    · exact .complete (by rw [hu.mem]; exact h.wf_mem) hu.inv c
    · exact h.hang hcmd
  · rcases exec_other_cases hi hexec with ⟨c, u, hu, rfl⟩ | rfl
    · exact .complete (by rw [hu.mem]; exact h.wf_mem) (hu.blockInv h.blockInv) c
    · exact h.hang hcmd

/-- The block's turn keeps the invariant. -/
theorem State.Inv.blockMove {s t : State} (h : s.Inv) (hmove : blockMove s = .next t) : t.Inv := by
  have hpass : s.pass.Inv := h.hostUpdate ⟨⟨rfl, rfl, rfl, rfl, rfl⟩, rfl, rfl, id⟩
  unfold Machine.blockMove at hmove
  split at hmove
  · cases hmove; exact hpass
  next w hw =>
    split at hmove
    · cases hmove; exact hpass
    · unfold runWord at hmove
      split at hmove
      · exact h.exec (by simp [hw]) hmove
      · cases hmove; exact .complete h.wf_mem h.blockInv _

/-- Settles O56: the block's turn and every event of the host keep the invariant. -/
theorem stepKeepsTheInvariant : Obligations.StepKeepsTheInvariant := by
  intro s t h hstep
  rcases step_cases s with hblock | ⟨e, rest, -, hhost⟩
  · exact h.blockMove (hblock ▸ hstep)
  · have hrest : State.Inv { s with agenda := rest } := h.hostUpdate ⟨⟨rfl, rfl, rfl, rfl, rfl⟩, rfl, rfl, id⟩
    exact hrest.hostMove (hhost ▸ hstep)

/-- Settles O55: after reset the block output is empty, host memory lists nothing and no command is in progress. -/
theorem resetMeetsTheInvariant : Obligations.ResetMeetsTheInvariant :=
  ⟨rfl, State.blockInv_of_empty rfl rfl rfl, fun _ => ⟨rfl, rfl⟩⟩

/-- Settles O36: a completed DEC command has kept the entries past its count, and a command that hangs keeps them all. -/
theorem decKeepsEntriesPastTheCount : Obligations.DecKeepsEntriesPastTheCount := by
  intro i s t hi hexec j hj
  rcases exec_dec_cases hi hexec with ⟨c, u, hu, rfl⟩ | rfl
  · exact hu.kept j hj
  · rfl

end Sys2Proof.Machine
end

section
/-! SUPPORT. The register space (10_state.md R20): the register at each offset, and an access by the register it names. -/

namespace Sys2Proof.Machine

/-! ### The register map -/

/-- Past the single registers only LIST and the matrices are mapped. -/
theorem regAtWord_of_le {k : Nat} (h : 0x13 ≤ k) : regAtWord k =
    if k < 0x40 then none
    else if k < 0x80 then some (.list (k - 0x40))
    else if k < 0x90 then some (.matrix .intra (k - 0x80))
    else if k < 0xA0 then some (.matrix .inter (k - 0x90))
    else none := by
  unfold regAtWord
  simp (disch := omega) only [if_neg]

/-- LIST entry i stands at 0x100 + 4i. -/
theorem regAt_list {i : Nat} (h : i < 64) : regAt (BitVec.ofNat 10 (0x100 + 4 * i)) = some (.list i) := by
  have hword : (BitVec.ofNat 10 (0x100 + 4 * i)).toNat / 4 = 0x40 + i := by rw [BitVec.toNat_ofNat]; omega
  rw [regAt, hword, regAtWord_of_le (by omega), if_neg (by omega), if_pos (by omega), Nat.add_sub_cancel_left]

/-- QM_INTRA word j stands at 0x200 + 4j. -/
theorem regAt_qmIntra {j : Nat} (h : j < 16) : regAt (BitVec.ofNat 10 (0x200 + 4 * j)) = some (.matrix .intra j) := by
  have hword : (BitVec.ofNat 10 (0x200 + 4 * j)).toNat / 4 = 0x80 + j := by rw [BitVec.toNat_ofNat]; omega
  rw [regAt, hword, regAtWord_of_le (by omega), if_neg (by omega), if_neg (by omega), if_pos (by omega),
    Nat.add_sub_cancel_left]

/-- QM_INTER word j stands at 0x240 + 4j. -/
theorem regAt_qmInter {j : Nat} (h : j < 16) : regAt (BitVec.ofNat 10 (0x240 + 4 * j)) = some (.matrix .inter j) := by
  have hword : (BitVec.ofNat 10 (0x240 + 4 * j)).toNat / 4 = 0x90 + j := by rw [BitVec.toNat_ofNat]; omega
  rw [regAt, hword, regAtWord_of_le (by omega), if_neg (by omega), if_neg (by omega), if_neg (by omega),
    if_pos (by omega), Nat.add_sub_cancel_left]

/-- The offsets between BLK_MASK and LIST and those past the matrices are reserved. -/
theorem regAt_reserved {offset : BitVec 10}
    (h : (0x04C ≤ offset.toNat ∧ offset.toNat < 0x100) ∨ 0x280 ≤ offset.toNat) : regAt offset = none := by
  rw [regAt, regAtWord_of_le (by omega)]
  rcases h with h | h
  · exact if_pos (by omega)
  · rw [if_neg (by omega), if_neg (by omega), if_neg (by omega), if_neg (by omega)]

/-- Settles O58: the single registers by their offsets, and the three arrays and the reserved offsets by their lemmas. -/
theorem registerMapIsTheSpecs : Obligations.RegisterMapIsTheSpecs := by
  refine ⟨rfl, rfl, rfl, rfl, rfl, rfl, rfl, rfl, rfl, rfl, rfl, rfl, rfl, rfl, rfl, rfl, rfl, rfl, rfl, ?_, ?_, ?_, ?_⟩
  · exact fun i hi => regAt_list hi
  · exact fun j hj => regAt_qmIntra hj
  · exact fun j hj => regAt_qmInter hj
  · exact fun offset h => regAt_reserved h

/-! ### An access by the register it names -/

theorem State.hostWrite_of_regAt {s : State} {offset : BitVec 10} {r : Reg} (h : regAt offset = some r) (v : Word) :
    s.hostWrite offset v = s.writeReg r v := by
  simp only [State.hostWrite, h]

theorem State.hostWrite_of_reserved {s : State} {offset : BitVec 10} (h : regAt offset = none) (v : Word) :
    s.hostWrite offset v = s := by
  simp only [State.hostWrite, h]

theorem State.readOffset_of_regAt {s : State} {offset : BitVec 10} {r : Reg} (h : regAt offset = some r) :
    s.readOffset offset = s.readReg r := by
  simp only [State.readOffset, h]

theorem State.readOffset_of_reserved {s : State} {offset : BitVec 10} (h : regAt offset = none) :
    s.readOffset offset = 0 := by
  simp only [State.readOffset, h]

theorem State.writeReg_of_idle {s : State} (h : s.busy = false) (r : Reg) (v : Word) :
    s.writeReg r v = s.writeIdle r v := by
  simp [State.writeReg, h]

/-- A write that has the same effect busy and idle. -/
theorem State.writeReg_of_eq {s t : State} {r : Reg} {v : Word} (hbusy : s.writeBusy r v = t)
    (hidle : s.writeIdle r v = t) : s.writeReg r v = t := by
  unfold State.writeReg
  split
  · exact hbusy
  · exact hidle

theorem State.freeBits_of_idle {s : State} (h : s.busy = false) (r : Reg) : s.freeBits r = 0 := by
  have hcmd : s.command = none := by simpa [State.busy] using h
  simp only [State.freeBits, hcmd]

/-- A register that no bit of is free reads its value (70 R316). -/
theorem State.readReg_of_freeBits {s : State} {r : Reg} (h : s.freeBits r = 0) : s.readReg r = s.regValue r := by
  simp [State.readReg, h]

theorem step_write {s : State} {offset : BitVec 10} {v : Word} {rest : List HostEvent} (hturn : s.turn = .host)
    (hagenda : s.agenda = .write offset .word v :: rest) (halign : offset.toNat % 4 = 0) :
    step s = .next (State.hostWrite { s with agenda := rest } offset v) :=
  (step_of_event hturn hagenda).trans (ifDefined_word halign _)

theorem step_read {s : State} {offset : BitVec 10} {rest : List HostEvent} (hturn : s.turn = .host)
    (hagenda : s.agenda = .read offset .word :: rest) (halign : offset.toNat % 4 = 0) :
    step s = .next (State.hostRead { s with agenda := rest } offset) :=
  (step_of_event hturn hagenda).trans (ifDefined_word halign _)

/-! ### Reset -/

/-- A reset gives every register its reset value (70 R300). -/
theorem State.regValue_doReset (s : State) (r : Reg) : s.doReset.regValue r = State.reset.regValue r := by
  cases r <;> rfl

/-- A write of CTRL has the same effect busy and idle (10 R23). -/
theorem State.hostWrite_ctrl (s : State) (v : Word) : s.hostWrite 0x004 v = s.writeCtrl v := by
  rw [State.hostWrite_of_regAt (r := .ctrl) (by decide)]
  exact State.writeReg_of_eq rfl rfl

/-- Settles O1, register by register. -/
theorem resetGivesEveryRegisterItsValue : Obligations.ResetGivesEveryRegisterItsValue := by
  refine ⟨rfl, by decide, rfl, rfl, rfl, rfl, by decide, by decide, rfl, rfl, rfl, by decide, ?_, rfl, by decide, ?_,
    by decide, by decide, rfl⟩
  · intro c
    cases c <;> rfl
  · intro i hi
    have hentry : State.reset.entry i = ⟨0, 0⟩ := by simp [State.entry, State.reset, Vector.getD, hi]
    rw [State.regValue, hentry]
    rfl

/-- Settles O2: both resets are `doReset`, which gives every register its reset value. -/
theorem bothResetsRestoreEveryRegister : Obligations.BothResetsRestoreEveryRegister := by
  refine ⟨?_, ?_, ?_⟩
  · intro s e rest hturn hagenda he
    refine ⟨State.doReset { s with agenda := rest }, ?_, State.regValue_doReset _, rfl, rfl, rfl⟩
    rcases he with rfl | ⟨v, hv, rfl⟩
    · exact step_of_event hturn hagenda
    · rw [step_write hturn hagenda (by decide), State.hostWrite_ctrl, State.writeCtrl, if_pos hv]
  · intro s v rest hturn hagenda hv
    rw [step_write hturn hagenda (by decide), State.hostWrite_ctrl, State.writeCtrl, if_neg (by rw [hv]; decide)]
  · intro s
    have hfree : s.freeBits .ctrl = 0 := by
      unfold State.freeBits
      split <;> rfl
    rw [State.readOffset_of_regAt (r := .ctrl) (by decide), State.readReg_of_freeBits hfree]
    rfl

/-! ### Accesses that the register ignores, STATUS writes and reads -/

/-- Settles O46: busy or idle, the register named ignores the write. -/
theorem readOnlyAndReservedWritesAreIgnored : Obligations.ReadOnlyAndReservedWritesAreIgnored := by
  intro s offset v
  refine ⟨fun h => ?_, State.readOffset_of_reserved⟩
  rcases h with h | h | h | h | h | h | ⟨i, h⟩
  · exact State.hostWrite_of_reserved h v
  all_goals
    rw [State.hostWrite_of_regAt h]
    exact State.writeReg_of_eq rfl rfl

/-- Settles O47: busy or idle, the write clears the flags whose bits are 1. -/
theorem statusWriteClearsByOne : Obligations.StatusWriteClearsByOne := by
  intro s v
  rw [State.hostWrite_of_regAt (r := .status) (by decide)]
  exact State.writeReg_of_eq rfl rfl

/-- A read while idle returns the register's value (10 R21). -/
theorem State.readOffset_of_idle {s : State} {offset : BitVec 10} {r : Reg} (hidle : s.busy = false)
    (hreg : regAt offset = some r) : s.readOffset offset = s.regValue r := by
  rw [State.readOffset_of_regAt hreg, State.readReg_of_freeBits (State.freeBits_of_idle hidle r)]

/-- No register shows what the host is still to do. -/
theorem State.regValue_agenda (s : State) (rest : List HostEvent) (q : Reg) :
    State.regValue { s with agenda := rest } q = s.regValue q := by
  cases q <;> rfl

/-- A read changes no register (20 R67). -/
theorem State.regValue_hostRead (s : State) (offset : BitVec 10) (q : Reg) :
    (s.hostRead offset).regValue q = s.regValue q := by
  cases q <;> rfl

/-- Settles O50: while idle no bit is free, so the word read is the register's value. -/
theorem idleReadsReturnTheRegister : Obligations.IdleReadsReturnTheRegister := by
  intro s offset rest r hturn hagenda halign hidle hreg
  refine ⟨_, step_read hturn hagenda halign, ?_, fun q => ?_, rfl, rfl⟩
  · have hread : State.readOffset { s with agenda := rest } offset = s.regValue r :=
      (State.readOffset_of_idle hidle hreg).trans (s.regValue_agenda rest r)
    rw [State.hostRead_reads, hread]
  · rw [State.regValue_hostRead, State.regValue_agenda]

end Sys2Proof.Machine
end

section
/-! SUPPORT. The registers as words (10_state.md R24-R35): the fields a register shows, and what a write makes of them. -/

namespace Sys2Proof.Machine

/-! ### Fields of a word -/

/-- Bit k of a word, from the word as a number. -/
theorem getLsbD_of_digit {w : Word} {k : Nat} {b : Bool} (h : w.toNat / 2 ^ k % 2 = b.toNat) : w.getLsbD k = b := by
  rw [BitVec.getLsbD, Nat.testBit_eq_decide_div_mod_eq, h]
  cases b <;> rfl

/-- The n-bit field at bit k of a word, from the word as a number. -/
theorem extractLsb'_of_digits {w : Word} {k n : Nat} {x : BitVec n} (h : w.toNat / 2 ^ k % 2 ^ n = x.toNat) :
    w.extractLsb' k n = x := by
  apply BitVec.eq_of_toNat_eq
  rw [BitVec.extractLsb'_toNat, Nat.shiftRight_eq_div_pow, h]

/-- The reserved bits of a word. -/
theorem extractLsb'_eq_zero_of_digits {w : Word} {k n : Nat} (h : w.toNat / 2 ^ k % 2 ^ n = 0) : w.extractLsb' k n = 0 :=
  extractLsb'_of_digits h

theorem State.statusWord_toNat (s : State) : s.statusWord.toNat =
    s.command.isSome.toNat + s.done.toNat * 2 ^ 1 + s.found.toNat * 2 ^ 2 + s.overrun.toNat * 2 ^ 3 +
      s.cmdErr.toNat * 2 ^ 4 + s.errCode.toByte.toNat * 2 ^ 8 := by
  have := s.command.isSome.toNat_lt
  have := s.done.toNat_lt
  have := s.found.toNat_lt
  have := s.overrun.toNat_lt
  have := s.cmdErr.toNat_lt
  have := s.errCode.toByte.isLt
  rw [State.statusWord, BitVec.toNat_ofNat, State.busy, Nat.mod_eq_of_lt (by omega)]

theorem Cfg.toWord_toNat (c : Cfg) : c.toWord.toNat =
    c.mpeg2.toNat + c.qScaleType.toNat * 2 ^ 1 + c.intraVlcFormat.toNat * 2 ^ 2 + c.alternateScan.toNat * 2 ^ 3 +
      c.intraDcPrecision.toNat * 2 ^ 4 := by
  have := c.mpeg2.toNat_lt
  have := c.qScaleType.toNat_lt
  have := c.intraVlcFormat.toNat_lt
  have := c.alternateScan.toNat_lt
  have := c.intraDcPrecision.isLt
  rw [Cfg.toWord, BitVec.toNat_ofNat, Nat.mod_eq_of_lt (by omega)]

theorem matrixWord_toNat (q : Vector Byte 64) (j : Nat) : (matrixWord q j).toNat =
    (q.getD (4 * j) 0).toNat + (q.getD (4 * j + 1) 0).toNat * 2 ^ 8 + (q.getD (4 * j + 2) 0).toNat * 2 ^ 16 +
      (q.getD (4 * j + 3) 0).toNat * 2 ^ 24 := by
  have := (q.getD (4 * j) 0).isLt
  have := (q.getD (4 * j + 1) 0).isLt
  have := (q.getD (4 * j + 2) 0).isLt
  have := (q.getD (4 * j + 3) 0).isLt
  rw [matrixWord, BitVec.toNat_ofNat, Nat.mod_eq_of_lt (by omega)]

/-- Byte b of a matrix word is entry 4j + b (10 R35). -/
theorem extractLsb'_matrixWord (q : Vector Byte 64) (j : Nat) {b : Nat} (hb : b < 4) :
    (matrixWord q j).extractLsb' (8 * b) 8 = q.getD (4 * j + b) 0 := by
  have := (q.getD (4 * j) 0).isLt
  have := (q.getD (4 * j + 1) 0).isLt
  have := (q.getD (4 * j + 2) 0).isLt
  have := (q.getD (4 * j + 3) 0).isLt
  apply extractLsb'_of_digits
  rw [matrixWord_toNat]
  obtain rfl | rfl | rfl | rfl : b = 0 ∨ b = 1 ∨ b = 2 ∨ b = 3 := by omega
  · rw [Nat.add_zero (4 * j)]; omega
  all_goals omega

theorem State.statusWord_fields (s : State) :
    s.statusWord.getLsbD 0 = s.command.isSome ∧ s.statusWord.getLsbD 1 = s.done ∧ s.statusWord.getLsbD 2 = s.found ∧
      s.statusWord.getLsbD 3 = s.overrun ∧ s.statusWord.getLsbD 4 = s.cmdErr ∧ s.statusWord.extractLsb' 5 3 = 0 ∧
      s.statusWord.extractLsb' 8 8 = s.errCode.toByte ∧ s.statusWord.extractLsb' 16 16 = 0 := by
  have := s.command.isSome.toNat_lt
  have := s.done.toNat_lt
  have := s.found.toNat_lt
  have := s.overrun.toNat_lt
  have := s.cmdErr.toNat_lt
  have := s.errCode.toByte.isLt
  have hw := s.statusWord_toNat
  refine ⟨getLsbD_of_digit ?_, getLsbD_of_digit ?_, getLsbD_of_digit ?_, getLsbD_of_digit ?_, getLsbD_of_digit ?_,
    extractLsb'_eq_zero_of_digits ?_, extractLsb'_of_digits ?_, extractLsb'_eq_zero_of_digits ?_⟩
  all_goals rw [hw]; omega

theorem Cfg.toWord_fields (c : Cfg) :
    c.toWord.getLsbD 0 = c.mpeg2 ∧ c.toWord.getLsbD 1 = c.qScaleType ∧ c.toWord.getLsbD 2 = c.intraVlcFormat ∧
      c.toWord.getLsbD 3 = c.alternateScan ∧ c.toWord.extractLsb' 4 2 = c.intraDcPrecision ∧
      c.toWord.extractLsb' 6 26 = 0 := by
  have := c.mpeg2.toNat_lt
  have := c.qScaleType.toNat_lt
  have := c.intraVlcFormat.toNat_lt
  have := c.alternateScan.toNat_lt
  have := c.intraDcPrecision.isLt
  have hw := c.toWord_toNat
  refine ⟨getLsbD_of_digit ?_, getLsbD_of_digit ?_, getLsbD_of_digit ?_, getLsbD_of_digit ?_, extractLsb'_of_digits ?_,
    extractLsb'_eq_zero_of_digits ?_⟩
  all_goals rw [hw]; omega

/-- The fields of a word that holds `x` in its low `m` bits, `y` in the `n` bits above and 0 in the `k` bits that are left. -/
theorem extractLsb'_of_pair {m n : Nat} (k : Nat) (hk : m + n + k = 32) (x : BitVec m) (y : BitVec n) :
    (BitVec.ofNat 32 (x.toNat + y.toNat * 2 ^ m)).extractLsb' 0 m = x ∧
      (BitVec.ofNat 32 (x.toNat + y.toNat * 2 ^ m)).extractLsb' m n = y ∧
      (BitVec.ofNat 32 (x.toNat + y.toNat * 2 ^ m)).extractLsb' (m + n) k = 0 := by
  have hlt : x.toNat + y.toNat * 2 ^ m < 2 ^ (m + n) :=
    calc x.toNat + y.toNat * 2 ^ m < 2 ^ m + y.toNat * 2 ^ m := Nat.add_lt_add_right x.isLt _
      _ = (y.toNat + 1) * 2 ^ m := by ring
      _ ≤ 2 ^ n * 2 ^ m := Nat.mul_le_mul_right _ y.isLt
      _ = 2 ^ (m + n) := by ring
  have hw : (BitVec.ofNat 32 (x.toNat + y.toNat * 2 ^ m)).toNat = x.toNat + y.toNat * 2 ^ m := by
    rw [BitVec.toNat_ofNat]
    exact Nat.mod_eq_of_lt (hlt.trans_le (Nat.pow_le_pow_right (by decide) (by omega)))
  refine ⟨extractLsb'_of_digits ?_, extractLsb'_of_digits ?_, extractLsb'_of_digits ?_⟩
  · rw [hw, Nat.pow_zero, Nat.div_one, Nat.add_mul_mod_self_right, Nat.mod_eq_of_lt x.isLt]
  · rw [hw, Nat.add_mul_div_right _ _ (Nat.two_pow_pos m), Nat.div_eq_of_lt x.isLt, Nat.zero_add,
      Nat.mod_eq_of_lt y.isLt]
  · rw [hw, Nat.div_eq_of_lt hlt]
    rfl

/-- A register of at most 32 bits reads as its number (10 R21). -/
theorem toNat_zeroExtend_word {n : Nat} (hn : n ≤ 32) (x : BitVec n) : (x.zeroExtend 32).toNat = x.toNat :=
  BitVec.toNat_setWidth_of_le hn

/-- Settles O59: each register's fields by its lemma. -/
theorem registerFieldsAreTheSpecs : Obligations.RegisterFieldsAreTheSpecs := by
  intro s
  have hmax : (s.regValue .bsMax).toNat = 8 * s.bsLen.toNat := by
    have := s.bsLen.isLt
    rw [State.regValue, State.maxBit, BitVec.toNat_ofNat]
    omega
  obtain ⟨hmbX, hmbY, -⟩ := extractLsb'_of_pair 0 rfl s.mbX s.mbY
  exact ⟨s.statusWord_fields, s.cfg.toWord_fields, ⟨hmbX, hmbY⟩, extractLsb'_of_pair 16 rfl s.rowMask s.colMask,
    fun i => extractLsb'_of_pair 10 rfl (s.entry i).value (s.entry i).pos,
    fun j b _ hb => ⟨extractLsb'_matrixWord s.qmIntra j hb, extractLsb'_matrixWord s.qmInter j hb⟩, rfl, rfl,
    toNat_zeroExtend_word (by decide) _, rfl, hmax, toNat_zeroExtend_word (by decide) _,
    toNat_zeroExtend_word (by decide) _, toNat_zeroExtend_word (by decide) _, toNat_zeroExtend_word (by decide) _,
    toNat_zeroExtend_word (by decide) _, toNat_zeroExtend_word (by decide) _, toNat_zeroExtend_word (by decide) _⟩

/-! ### A write of a register while idle -/

/-- A register of `n` bits keeps the low bits of the word written, and its reserved bits read 0 (10 R21). -/
theorem zeroExtend_extractLsb' {n : Nat} (hn : n ≤ 32) (v : Word) :
    (v.extractLsb' 0 n).zeroExtend 32 = v &&& BitVec.ofNat 32 (2 ^ n - 1) := by
  have hmask : 2 ^ n - 1 < 2 ^ 32 :=
    (Nat.sub_lt (Nat.two_pow_pos n) Nat.one_pos).trans_le (Nat.pow_le_pow_right (by decide) hn)
  apply BitVec.eq_of_toNat_eq
  rw [toNat_zeroExtend_word hn, BitVec.extractLsb'_toNat, BitVec.toNat_and, BitVec.toNat_ofNat, Nat.mod_eq_of_lt hmask,
    Nat.and_two_pow_sub_one_eq_mod, Nat.shiftRight_zero]

theorem Cfg.toWord_ofWord (v : Word) : (Cfg.ofWord v).toWord = v &&& 0x3F := by
  have hand : (v &&& 0x3F).toNat = v.toNat % 2 ^ 6 := by
    rw [BitVec.toNat_and, ← Nat.and_two_pow_sub_one_eq_mod]; rfl
  apply BitVec.eq_of_toNat_eq
  rw [Cfg.toWord_toNat, hand]
  simp only [Cfg.ofWord, BitVec.getLsbD, Nat.toNat_testBit, BitVec.extractLsb'_toNat, Nat.shiftRight_eq_div_pow]
  omega

/-- A word written in two halves. -/
theorem ofNat_halves (v : Word) :
    BitVec.ofNat 32 ((v.extractLsb' 0 16).toNat + (v.extractLsb' 16 16).toNat * 2 ^ 16) = v := by
  have := v.isLt
  apply BitVec.eq_of_toNat_eq
  simp only [BitVec.toNat_ofNat, BitVec.extractLsb'_toNat, Nat.shiftRight_eq_div_pow]
  omega

/-- Word j of a matrix written: its four entries. -/
theorem getD_setMatrixWord_same (q : Vector Byte 64) {j b : Nat} (v : Word) (hj : j < 16) (hb : b < 4) :
    (setMatrixWord q j v).getD (4 * j + b) 0 = v.extractLsb' (8 * b) 8 := by
  obtain rfl | rfl | rfl | rfl : b = 0 ∨ b = 1 ∨ b = 2 ∨ b = 3 := by omega
  all_goals
    simp only [setMatrixWord, getD_setIfInBounds]
    simp (disch := omega) only [if_pos, if_neg, true_and, Nat.reduceMul]

/-- Word j of a matrix written: every entry of another word. -/
theorem getD_setMatrixWord_of_ne (q : Vector Byte 64) {j k b : Nat} (v : Word) (hk : k ≠ j) (hb : b < 4) :
    (setMatrixWord q j v).getD (4 * k + b) 0 = q.getD (4 * k + b) 0 := by
  simp only [setMatrixWord, getD_setIfInBounds]
  simp (disch := omega) only [if_neg]

theorem matrixWord_setMatrixWord_same (q : Vector Byte 64) {j : Nat} (v : Word) (hj : j < 16) :
    matrixWord (setMatrixWord q j v) j = v := by
  have hentry (b : Nat) (hb : b < 4) := getD_setMatrixWord_same q v hj hb
  have := v.isLt
  apply BitVec.eq_of_toNat_eq
  rw [matrixWord_toNat, hentry 1 (by decide), hentry 2 (by decide), hentry 3 (by decide),
    show (setMatrixWord q j v).getD (4 * j) 0 = _ from hentry 0 (by decide)]
  simp only [BitVec.extractLsb'_toNat, Nat.shiftRight_eq_div_pow]
  omega

theorem matrixWord_setMatrixWord_of_ne (q : Vector Byte 64) {j k : Nat} (v : Word) (hk : k ≠ j) :
    matrixWord (setMatrixWord q j v) k = matrixWord q k := by
  have hentry (b : Nat) (hb : b < 4) := getD_setMatrixWord_of_ne q v hk hb
  simp only [matrixWord, hentry 1 (by decide), hentry 2 (by decide), hentry 3 (by decide),
    show (setMatrixWord q j v).getD (4 * k) 0 = _ from hentry 0 (by decide), Nat.add_zero]

@[simp] theorem State.dcPred_setDcPred_same (s : State) (c : Component) (v : BitVec 16) : (s.setDcPred c v).dcPred c = v := by
  cases c <;> rfl

theorem State.dcPred_setDcPred_of_ne (s : State) {c d : Component} (v : BitVec 16) (h : d ≠ c) :
    (s.setDcPred c v).dcPred d = s.dcPred d := by
  cases c <;> cases d <;> (try exact absurd rfl h) <;> rfl

@[simp] theorem State.matrix_setMatrix_same (s : State) (m : WeightSel) (q : Vector Byte 64) :
    (s.setMatrix m q).matrix m = q := by
  cases m <;> rfl

theorem State.matrix_setMatrix_of_ne (s : State) {m n : WeightSel} (q : Vector Byte 64) (h : n ≠ m) :
    (s.setMatrix m q).matrix n = s.matrix n := by
  cases m <;> cases n <;> (try exact absurd rfl h) <;> rfl

/-- A predictor written shows in its own register only. -/
theorem State.regValue_setDcPred_of_ne (s : State) {c : Component} {q : Reg} (v : BitVec 16) (h : q ≠ .dcPred c) :
    (s.setDcPred c v).regValue q = s.regValue q := by
  cases q with
  | dcPred d =>
    have hd : d ≠ c := fun hd => h (hd ▸ rfl)
    rw [State.regValue, State.regValue, State.dcPred_setDcPred_of_ne s v hd]
  | _ => cases c <;> rfl

/-- A matrix written shows in its own words only. -/
theorem State.regValue_setMatrix_of_ne (s : State) {m : WeightSel} {q : Reg} (w : Vector Byte 64)
    (h : ∀ k, q ≠ .matrix m k) : (s.setMatrix m w).regValue q = s.regValue q := by
  cases q with
  | matrix n k =>
    have hn : n ≠ m := fun hn => h k (hn ▸ rfl)
    rw [State.regValue, State.regValue, State.matrix_setMatrix_of_ne s w hn]
  | _ => cases m <;> rfl

/-- A write of any register but CTRL, STATUS and CMD leaves every other register as it was, but BS_MAX when it is of BS_LEN. -/
theorem State.regValue_writeIdle_of_ne (s : State) {r q : Reg} (v : Word) (hctrl : r ≠ .ctrl) (hstatus : r ≠ .status)
    (hcmd : r ≠ .cmd) (hne : q ≠ r) (hlen : ¬(r = .bsLen ∧ q = .bsMax)) : (s.writeIdle r v).regValue q = s.regValue q := by
  cases r with
  | ctrl => exact absurd rfl hctrl
  | status => exact absurd rfl hstatus
  | cmd => exact absurd rfl hcmd
  | id | result | bsMax | blkCount | blkMask | list _ => rfl
  | dcPred c => exact s.regValue_setDcPred_of_ne _ hne
  | matrix m j =>
    by_cases hq : ∃ k, q = .matrix m k
    · obtain ⟨k, rfl⟩ := hq
      have hk : k ≠ j := fun hk => hne (hk ▸ rfl)
      rw [State.writeIdle, State.regValue, State.regValue, State.matrix_setMatrix_same,
        matrixWord_setMatrixWord_of_ne _ v hk]
    · exact s.regValue_setMatrix_of_ne _ fun k hk => hq ⟨k, hk⟩
  | bsLen =>
    cases q with
    | bsLen => exact absurd rfl hne
    | bsMax => exact absurd ⟨rfl, rfl⟩ hlen
    | _ => rfl
  | bsBase | bsOffset | cfg | vertSize | mbRows | qscale | mbPos =>
    cases q <;> (try exact absurd rfl hne) <;> rfl

/-- Settles O45: the write is the idle one; each register's value by the lemma of its kind, and the frame. -/
theorem registerWritesReadBack : Obligations.RegisterWritesReadBack := by
  intro s v hidle
  simp only [State.writeReg_of_idle hidle]
  refine ⟨rfl, zeroExtend_extractLsb' (by decide) v, ?_, rfl, Cfg.toWord_ofWord v, zeroExtend_extractLsb' (by decide) v,
    zeroExtend_extractLsb' (by decide) v, zeroExtend_extractLsb' (by decide) v, ofNat_halves v, fun c => ?_,
    fun m j hj => ?_, fun r q hctrl hstatus hcmd hne hlen => s.regValue_writeIdle_of_ne v hctrl hstatus hcmd hne hlen⟩
  · rw [State.writeIdle, State.regValue, State.maxBit, BitVec.extractLsb'_toNat, Nat.shiftRight_zero]
  · rw [State.writeIdle, State.regValue, State.dcPred_setDcPred_same]
    exact zeroExtend_extractLsb' (by decide) v
  · rw [State.writeIdle, State.regValue, State.matrix_setMatrix_same, matrixWord_setMatrixWord_same _ v hj]

end Sys2Proof.Machine
end

section
/-! SUPPORT. Host memory as the stream's buffer (20_memory.md R61, R63, R73): what a read of it gives when no store races, which
reads the platform rejects, and the commands that must read such a byte. -/

namespace Sys2Proof.Machine

/-! ### The buffer -/

/-- The buffer that the stream's bits stand in, and the race at it, are the same. -/
structure SameBuffer (s t : State) : Prop where
  base : t.bsBase = s.bsBase
  len : t.bsLen = s.bsLen
  mem : t.mem = s.mem
  earlier : t.earlier = s.earlier

theorem SameBuffer.consume (s : State) (n : Nat) : SameBuffer s (s.consume n) := ⟨rfl, rfl, rfl, rfl⟩

theorem SameBuffer.clearOutput (s : State) : SameBuffer s s.clearOutput := ⟨rfl, rfl, rfl, rfl⟩

theorem SameBuffer.align (s : State) : SameBuffer s s.align := ⟨by simp, by simp, by simp, by simp⟩

theorem SameBuffer.setWeight (s : State) (m : WeightSel) (p : Nat) (b : Byte) : SameBuffer s (s.setWeight m p b) :=
  ⟨s.setMatrix_bsBase m _, s.setMatrix_bsLen m _, s.setMatrix_mem m _, s.setMatrix_earlier m _⟩

theorem SameBuffer.trans {s t u : State} (h : SameBuffer s t) (k : SameBuffer t u) : SameBuffer s u :=
  ⟨k.base.trans h.base, k.len.trans h.len, k.mem.trans h.mem, k.earlier.trans h.earlier⟩

theorem SameBuffer.quiet {s t : State} (h : SameBuffer s t) (hq : s.quiet) : t.quiet := h.earlier.trans hq

theorem SameBuffer.rejects {s t : State} (h : SameBuffer s t) {i : Nat} (hi : s.rejects i) : t.rejects i := by
  simpa only [State.rejects, h.base, h.len, h.mem] using hi

theorem SameBuffer.streamBit {s t : State} (h : SameBuffer s t) : t.streamBit = s.streamBit := by
  funext i
  simp only [State.streamBit, h.base, h.len, h.mem]

theorem SameBuffer.maxBit {s t : State} (h : SameBuffer s t) : t.maxBit = s.maxBit := by
  simp only [State.maxBit, h.len]

/-! ### One bit -/

/-- Without a race a read gives what the address holds (20 R61). -/
theorem State.memRead_of_quiet {s : State} (hq : s.quiet) (site i addr : Nat) :
    s.memRead site i addr = Memory.read s.mem (addr % 2 ^ 32) := by
  have hnone : s.earlier = [] := hq
  simp only [State.memRead, hnone, List.filter_nil]

/-- At and past MAX a bit is 0 and no memory is read (20 R63). -/
theorem State.bit_of_maxBit_le {s : State} {i : Nat} (h : s.maxBit ≤ i) (site : Nat) : s.bit site i = some false :=
  if_neg (Nat.not_lt.2 h)

/-- Before MAX a bit is that of the byte read. -/
theorem State.bit_of_lt_maxBit {s : State} {i : Nat} (hq : s.quiet) (h : i < s.maxBit) (site : Nat) : s.bit site i =
    (Memory.read s.mem ((s.bsBase.toNat + i / 8) % 2 ^ 32)).map (fun b => b.getLsbD (7 - i % 8)) := by
  rw [State.bit, if_pos h, State.memRead_of_quiet hq]

/-- Without a race a bit cannot be read exactly when the platform rejects its byte (20 R73). -/
theorem State.bit_eq_none_iff {s : State} {site i : Nat} (hq : s.quiet) : s.bit site i = none ↔ s.rejects i := by
  by_cases hi : i < s.maxBit
  · rw [State.bit_of_lt_maxBit hq hi, Option.map_eq_none_iff]
    exact ⟨fun hread => ⟨hi, hread⟩, fun hrej => hrej.2⟩
  · rw [State.bit_of_maxBit_le (Nat.not_lt.1 hi)]
    exact iff_of_false (by simp) fun hrej => hi hrej.1

/-- Without a race a bit that can be read is the stream's (20 R63). -/
theorem State.bit_eq_some {s : State} {site i : Nat} {b : Bool} (hq : s.quiet) (h : s.bit site i = some b) :
    b = s.streamBit i := by
  unfold State.streamBit
  by_cases hi : i < s.maxBit
  · rw [State.bit_of_lt_maxBit hq hi] at h
    obtain ⟨byte, hread, rfl⟩ := Option.map_eq_some_iff.1 h
    rw [decide_eq_true (show i < 8 * s.bsLen.toNat from hi), hread]
    rfl
  · rw [State.bit_of_maxBit_le (Nat.not_lt.1 hi)] at h
    rw [decide_eq_false (show ¬i < 8 * s.bsLen.toNat from hi), Bool.false_and]
    exact (Option.some.inj h).symm

/-! ### Peek -/

/-- A number read from the stream, its first bit taken off (20 R64). -/
theorem bitsValue_succ_first (f : Nat → Bool) (i n : Nat) :
    bitsValue f i (n + 1) = (f i).toNat * 2 ^ n + bitsValue f (i + 1) n := by
  induction n with
  | zero => simp [bitsValue]
  | succ n ih =>
    calc bitsValue f i (n + 2) = 2 * bitsValue f i (n + 1) + (f (i + (n + 1))).toNat := rfl
      _ = 2 * ((f i).toNat * 2 ^ n + bitsValue f (i + 1) n) + (f (i + 1 + n)).toNat := by
        rw [ih, Nat.add_comm n 1, Nat.add_assoc]
      _ = (f i).toNat * 2 ^ (n + 1) + (2 * bitsValue f (i + 1) n + (f (i + 1 + n)).toNat) := by ring

/-- A Peek fails exactly when one of its bits cannot be read. -/
theorem State.peekLoop_eq_none_iff {s : State} {site n i v : Nat} :
    s.peekLoop site n i v = none ↔ ∃ k, k < n ∧ s.bit site (i + k) = none := by
  induction n generalizing i v with
  | zero => simp [State.peekLoop]
  | succ n ih =>
    rw [State.peekLoop]
    cases hbit : s.bit site i with
    | none => exact ⟨fun _ => ⟨0, n.succ_pos, hbit⟩, fun _ => rfl⟩
    | some b =>
      refine ih.trans ⟨fun ⟨k, hk, hnone⟩ => ⟨k + 1, by omega, by rwa [Nat.add_right_comm] at hnone⟩, ?_⟩
      rintro ⟨k, hk, hnone⟩
      cases k with
      | zero => exact nomatch hbit.symm.trans hnone
      | succ k => exact ⟨k, by omega, by rwa [Nat.add_right_comm]⟩

/-- A Peek that does not fail gives the stream's bits as a number, after the bits read before. -/
theorem State.peekLoop_eq_some {s : State} {site n i v w : Nat} (hq : s.quiet) (h : s.peekLoop site n i v = some w) :
    w = v * 2 ^ n + bitsValue s.streamBit i n := by
  induction n generalizing i v with
  | zero => simpa [State.peekLoop, bitsValue, eq_comm] using h
  | succ n ih =>
    rw [State.peekLoop] at h
    split at h
    · exact nomatch h
    next b hbit =>
      rw [ih h, State.bit_eq_some hq hbit, bitsValue_succ_first]
      ring

/-- Without a race a Peek meets a rejected read exactly when the platform rejects the byte of one of its bits (40 R130). -/
theorem State.peek_eq_none_iff {s : State} {n : Nat} (hq : s.quiet) :
    s.peek n = none ↔ ∃ k, k < n ∧ s.rejects (s.off + k) := by
  simp only [State.peek, State.peekLoop_eq_none_iff, State.bit_eq_none_iff hq]

/-- Without a race the number a Peek gives is that of the stream (40 R130). -/
theorem State.peek_eq_some {s : State} {n v : Nat} (hq : s.quiet) (h : s.peek n = some v) :
    v = bitsValue s.streamBit s.off n := by
  simpa using State.peekLoop_eq_some hq h

/-- At and past MAX a Peek reads no memory and shifts in zeros (20 R63). -/
theorem State.peekLoop_of_maxBit_le {s : State} {i : Nat} (h : s.maxBit ≤ i) (site n : Nat) :
    s.peekLoop site n i 0 = some 0 := by
  induction n generalizing i with
  | zero => rfl
  | succ n ih => simpa [State.peekLoop, State.bit_of_maxBit_le h] using ih (by omega)

/-- Settles O13: past MAX the Peek is 0. -/
theorem peekPastTheEndGivesZero : Obligations.PeekPastTheEndGivesZero := by
  intro s n hn hmax
  have hpeek : s.peek n = some 0 := State.peekLoop_of_maxBit_le hmax n n
  exact runCommand_ok (by simp only [ifLegal, if_pos hn, peekBody, hpeek]; rfl)

/-! ### Parts of a command that must read a rejected byte -/

theorem peekBody_of_rejects {s : State} {n k : Nat} (hq : s.quiet) (hk : k < n) (h : s.rejects (s.off + k)) :
    peekBody n s = .stuck := by
  simp only [peekBody, (State.peek_eq_none_iff hq).2 ⟨k, hk, h⟩]

theorem State.get_of_rejects {s : State} {n k : Nat} (hq : s.quiet) (hk : k < n) (h : s.rejects (s.off + k)) :
    s.get n = .stuck := by
  simp only [State.get, (State.peek_eq_none_iff hq).2 ⟨k, hk, h⟩]

theorem getBody_of_rejects {s : State} {n k : Nat} (hq : s.quiet) (hk : k < n) (h : s.rejects (s.off + k)) :
    getBody n s = .stuck := by
  rw [getBody, State.get_of_rejects hq hk h, Res.andThen_stuck]

/-- A codeword's first bit is the bit under the cursor, so the first row of a table meets its byte (42 R170). -/
theorem State.vlc_of_rejects {α : Type} {s : State} {r : VlcRow α} {rest : List (VlcRow α)} (hlen : 0 < r.len)
    (hq : s.quiet) (h : s.rejects s.off) : s.vlc (r :: rest) = .stuck := by
  have hrow : s.startsWith vlcSite r.code r.len s.off = none := by
    obtain ⟨n, hn⟩ := Nat.exists_eq_succ_of_ne_zero hlen.ne'
    rw [hn, State.startsWith, (State.bit_eq_none_iff hq).2 h]
  simp only [State.vlc, State.findRow, hrow]

theorem sliceHeader_of_rejects {s : State} (hq : s.quiet) (h : s.rejects (s.consume 24).off) : sliceHeader s = .stuck := by
  have hbuf := SameBuffer.consume s 24
  have hget : (s.consume 24).get 8 = .stuck := State.get_of_rejects (k := 0) (hbuf.quiet hq) (by decide) (hbuf.rejects h)
  rw [sliceHeader, slicePosition, hget, Res.andThen_stuck, Res.andThen_stuck]

theorem decIntra_of_rejects {s : State} (table : AcTable) (cc : Component) (hq : s.quiet) (h : s.rejects s.off) :
    decIntra table cc s = .stuck := by
  have hbuf := SameBuffer.clearOutput s
  have hvlc : s.clearOutput.vlc (dcTable cc) = .stuck := by
    cases cc <;> exact State.vlc_of_rejects (by decide) (hbuf.quiet hq) (hbuf.rejects h)
  rw [decIntra, intraDc, dcDiff, hvlc, Res.andThen_stuck, Res.andThen_stuck, Res.andThen_stuck]

theorem decNonintra_of_rejects {s : State} (hq : s.quiet) (h : s.rejects s.off) : decNonintra s = .stuck := by
  have hbuf := SameBuffer.clearOutput s
  have hpeek : s.clearOutput.peek 1 = none :=
    (State.peek_eq_none_iff (hbuf.quiet hq)).2 ⟨0, by decide, hbuf.rejects h⟩
  simp only [decNonintra, firstNonIntra, hpeek, Res.andThen_stuck]

theorem State.setWeight_off (s : State) (m : WeightSel) (p : Nat) (b : Byte) : (s.setWeight m p b).off = s.off :=
  congrArg BitVec.toNat (s.setMatrix_bsOffset m _)

/-- QM_LOAD meets the rejected byte at the latest with the weight that the byte has a bit of (43 R232). -/
theorem loadWeights_of_rejects {s : State} {m : WeightSel} {ps : List Nat} {i j : Nat} (hq : s.quiet) (hi : i < ps.length)
    (hj : j < 8) (h : s.rejects ((s.consume (8 * i)).off + j)) : loadWeights m ps s = .stuck := by
  induction ps generalizing s i with
  | nil => exact absurd hi (Nat.not_lt_zero i)
  | cons p ps ih =>
    rw [loadWeights, Res.andThen_eq_stuck]
    cases i with
    | zero =>
      have hoff : (s.consume (8 * 0)).off = s.off := by
        rw [State.consume_off]; exact Nat.mod_eq_of_lt s.bsOffset.isLt
      exact .inl (State.get_of_rejects hq hj (hoff ▸ h))
    | succ i =>
      rcases hget : s.get 8 with ⟨b, t⟩ | ⟨c, t⟩ | _
      · obtain ⟨-, rfl⟩ := State.get_eq_ok.1 hget
        have hbuf := (SameBuffer.consume s 8).trans (.setWeight (s.consume 8) m p (BitVec.ofNat 8 b))
        have hoff : (((s.consume 8).setWeight m p (BitVec.ofNat 8 b)).consume (8 * i)).off =
            (s.consume (8 * (i + 1))).off := by
          simp only [State.consume_off, State.setWeight_off]
          omega
        exact .inr ⟨b, _, rfl, ih (hbuf.quiet hq) (Nat.lt_of_succ_lt_succ hi) (hbuf.rejects (hoff ▸ h))⟩
      · exact absurd hget (s.get_ne_error t 8 c)
      · exact .inl rfl

/-! ### Scans -/

/-- A Consume of no bit does nothing while the cursor is not past MAX. -/
theorem State.consume_zero {s : State} (h : s.off ≤ s.maxBit) : s.consume 0 = s := by
  have hoff : BitVec.ofNat 32 (s.off + 0) = s.bsOffset := BitVec.eq_of_toNat_eq (Nat.mod_eq_of_lt s.bsOffset.isLt)
  have hflag : overrunAfter s.overrun (s.off + 0) s.maxBit = s.overrun := by
    simp [overrunAfter, Nat.not_lt.2 h]
  rw [State.consume, hoff, hflag]

theorem State.maxBit_lt (s : State) : s.maxBit < 2 ^ 31 := by
  have := s.bsLen.isLt
  unfold State.maxBit
  omega

/-- A scan that finds no code at the positions before a stuck one is stuck, there or before (41 R150, R151). -/
theorem scanLoop_stuck {probe : State → Probe} {fuel k : Nat} {s : State} (hk : k < fuel) (hmax : s.off + 8 * k < s.maxBit)
    (hbefore : ∀ j, j < k → ∀ c, probe (s.consume (8 * j)) ≠ .code c) (hstuck : probe (s.consume (8 * k)) = .stuck) :
    scanLoop probe fuel s = .stuck := by
  have hzero : s.consume (8 * 0) = s := State.consume_zero (by omega)
  induction k generalizing fuel s with
  | zero =>
    obtain ⟨fuel, rfl⟩ := Nat.exists_eq_succ_of_ne_zero hk.ne'
    rw [hzero] at hstuck
    simp only [scanLoop, if_neg (show ¬s.maxBit ≤ s.off by omega), hstuck]
  | succ k ih =>
    obtain ⟨fuel, rfl⟩ := Nat.exists_eq_succ_of_ne_zero (Nat.ne_zero_of_lt hk)
    have hhere := hzero ▸ hbefore 0 k.succ_pos
    have hmove : ∀ j, (s.consume 8).consume (8 * j) = s.consume (8 * (j + 1)) := fun j => by
      rw [State.consume_consume]; congr 1; omega
    have hnext : scanLoop probe fuel (s.consume 8) = .stuck := by
      have hlt := s.maxBit_lt
      have hoff : (s.consume 8).off + 8 * k < (s.consume 8).maxBit := by
        rw [State.consume_off, State.consume_maxBit]; omega
      refine ih (Nat.lt_of_succ_lt_succ hk) hoff (fun j hj => ?_) ?_ (State.consume_zero (by omega))
      · rw [hmove]; exact hbefore (j + 1) (Nat.succ_lt_succ hj)
      · rw [hmove]; exact hstuck
    simp only [scanLoop, if_neg (show ¬s.maxBit ≤ s.off by omega)]
    cases hp : probe s with
    | code c => exact absurd hp (hhere c)
    | nothing => exact hnext
    | stuck => rfl

/-- A scan's test of `n` bits for `marker`, on a buffer that does not change: it cannot be made when the first of the bits is
rejected, and it finds a code only where the stream holds the marker. -/
structure TestsFor (probe : State → Probe) (n marker : Nat) : Prop where
  stuck : ∀ t : State, t.quiet → t.off + n ≤ t.maxBit → t.rejects t.off → probe t = .stuck
  code : ∀ (t : State) (c : Nat), t.quiet → probe t = .code c → bitsValue t.streamBit t.off n = marker

theorem probeAny_testsFor : TestsFor probeAny 24 0x000001 where
  stuck t hq hmax hrej := by
    have hpeek : t.peek 24 = none := (State.peek_eq_none_iff hq).2 ⟨0, by decide, hrej⟩
    simp only [probeAny, if_pos hmax, hpeek]
  code t c hq h := by
    unfold probeAny at h
    split at h
    · split at h
      · cases h
      next v hpeek =>
        split at h
        next hv => rw [← State.peek_eq_some hq hpeek, hv]
        · cases h
    · cases h

theorem probeCode_testsFor (xx : Byte) : TestsFor (probeCode xx) 32 (0x00000100 + xx.toNat) where
  stuck t hq hmax hrej := by
    have hpeek : t.peek 32 = none := (State.peek_eq_none_iff hq).2 ⟨0, by decide, hrej⟩
    simp only [probeCode, if_pos hmax, hpeek]
  code t c hq h := by
    unfold probeCode at h
    split at h
    · split at h
      · cases h
      next v hpeek =>
        split at h
        next hv => rw [← State.peek_eq_some hq hpeek, hv]
        · cases h
    · cases h

/-- A scan is stuck at a rejected byte at a position that it tests before a match (41 R150, R151). -/
theorem TestsFor.scan_of_rejects {probe : State → Probe} {n marker k : Nat} {s : State} (ht : TestsFor probe n marker)
    (hn : 0 < n) (hq : s.quiet) (hmax : s.align.off + 8 * k + n ≤ s.maxBit) (hrej : s.rejects (s.align.off + 8 * k))
    (hbefore : ∀ j, j < k → bitsValue s.streamBit (s.align.off + 8 * j) n ≠ marker) : scan probe s = .stuck := by
  have hlt := s.maxBit_lt
  have hbuf (j : Nat) : SameBuffer s (s.align.consume (8 * j)) := (SameBuffer.align s).trans (.consume _ _)
  have hoff (j : Nat) (hj : j ≤ k) : (s.align.consume (8 * j)).off = s.align.off + 8 * j := by
    rw [State.consume_off]; omega
  have hfuel : k < s.bsLen.toNat := by unfold State.maxBit at hmax; omega
  refine scanLoop_stuck hfuel ?_ (fun j hj c hcode => hbefore j hj ?_) (ht.stuck _ ((hbuf k).quiet hq) ?_ ?_)
  · rw [(SameBuffer.align s).maxBit]; omega
  · have hmarker := ht.code _ c ((hbuf j).quiet hq) hcode
    rwa [(hbuf j).streamBit, hoff j hj.le] at hmarker
  · rw [(hbuf k).maxBit, hoff k le_rfl]; exact hmax
  · rw [hoff k le_rfl]; exact (hbuf k).rejects hrej

/-- The AC table of an intra block is there unless the missing AC_TABLE_ONE is selected (42 R177, R178). -/
theorem State.intraTable_of_supplied {s : State}
    (h : ¬(s.cfg.mpeg2 = true ∧ s.cfg.intraVlcFormat = true ∧ s.acTableOne = none)) : ∃ table, s.intraTable = some table := by
  unfold State.intraTable
  split
  next hsel =>
    obtain ⟨hmpeg2, hformat⟩ := Bool.and_eq_true_iff.1 hsel
    exact Option.ne_none_iff_exists'.1 fun hnone => h ⟨hmpeg2, hformat, hnone⟩
  · exact ⟨acTableZero, rfl⟩

/-- Settles O17: each command's body is stuck, by the lemma of its first part that must read the byte. -/
theorem rejectedReadHangsTheCommand : Obligations.RejectedReadHangsTheCommand := by
  intro s hq
  refine ⟨fun n k hn hk hrej => ⟨?_, ?_⟩, fun k hmax hrej hbefore => ?_, fun xx k hmax hrej hbefore => ?_, fun hrej => ?_,
    fun cc hsupplied hrej => ?_, fun hrej => ?_, fun m i j hi hj hrej => ?_⟩
  · exact runCommand_stuck ((if_pos hn).trans (peekBody_of_rejects hq hk hrej))
  · exact runCommand_stuck ((if_pos hn).trans (getBody_of_rejects hq hk hrej))
  · exact runCommand_stuck (probeAny_testsFor.scan_of_rejects (by decide) hq hmax hrej hbefore)
  · exact runCommand_stuck ((probeCode_testsFor xx).scan_of_rejects (by decide) hq hmax hrej hbefore)
  · exact runCommand_stuck (sliceHeader_of_rejects hq hrej)
  · obtain ⟨table, htable⟩ := State.intraTable_of_supplied hsupplied
    simp only [exec, execDecIntra, htable]
    exact runCommand_stuck (decIntra_of_rejects table cc hq hrej)
  · exact runCommand_stuck (decNonintra_of_rejects hq hrej)
  · exact runCommand_stuck (loadWeights_of_rejects hq hi hj hrej)

end Sys2Proof.Machine
end

section
/-! SUPPORT. The host's accesses (20_memory.md R67, R68, R73): one that is refused, a store, and what an access does to a command
in progress. -/

namespace Sys2Proof.Machine

/-- A narrow or misaligned access is refused (20 R67). -/
theorem ifDefined_undefined {offset : BitVec 10} {width : AccessWidth} (h : width ≠ .word ∨ offset.toNat % 4 ≠ 0)
    (t : State) : ifDefined offset width t = .refused .undefinedRegisterAccess := by
  have hundef : ¬accessDefined offset width = true := by
    simp only [accessDefined, Bool.and_eq_true, decide_eq_true_eq]
    exact not_and_or.2 h
  exact if_neg hundef

/-- Settles O52: a write and a read are refused alike. -/
theorem undefinedAccessesAreRefused : Obligations.UndefinedAccessesAreRefused := by
  intro s offset width v rest hturn hagenda hundef
  rcases hagenda with hagenda | hagenda
  all_goals exact (step_of_event hturn hagenda).trans (ifDefined_undefined hundef _)

/-- A store changes no register (20 R68). -/
theorem State.regValue_hostStore (s : State) (addr : Word) (b : Byte) (r : Reg) :
    (s.hostStore addr b).regValue r = s.regValue r := by
  cases r <;> rfl

/-- Settles O53: the step is the store, whose byte reads back by the laws of host memory. -/
theorem hostStoresReadBack : Obligations.HostStoresReadBack := by
  intro s addr b rest hturn hagenda
  refine ⟨_, step_of_event hturn hagenda, Memory.read_write_same _ _ _, fun a ha => Memory.read_write_other _ _ ha,
    fun r => ?_, rfl⟩
  rw [State.regValue_hostStore, State.regValue_agenda]

/-! ### A command in progress -/

/-- The command in progress, and whether it is stuck, are as before, and DONE is not set. -/
structure KeepsCommand (s t : State) : Prop where
  command : t.command = s.command
  stuck : t.stuck = s.stuck
  done : t.done = true → s.done = true

theorem KeepsCommand.refl (s : State) : KeepsCommand s s := ⟨rfl, rfl, id⟩

theorem KeepsCommand.writeStatus (s : State) (v : Word) : KeepsCommand s (s.writeStatus v) where
  command := rfl
  stuck := rfl
  done h := (Bool.and_eq_true_iff.1 h).1

theorem KeepsCommand.dropWrite (s : State) : KeepsCommand s s.dropWrite := ⟨rfl, rfl, id⟩

theorem KeepsCommand.poll (s : State) (seen : Bool) (again : HostEvent) : KeepsCommand s (poll seen again s) := by
  unfold Machine.poll
  split
  · exact .refl s
  · exact ⟨rfl, rfl, id⟩

/-- While a command runs, a write keeps it or is a soft reset (70 R315). -/
theorem State.writeBusy_cases (s : State) (r : Reg) (v : Word) :
    KeepsCommand s (s.writeBusy r v) ∨ s.writeBusy r v = s.doReset := by
  cases r with
  | ctrl =>
    rw [State.writeBusy, State.writeCtrl]
    split
    · exact .inr rfl
    · exact .inl (.refl s)
  | status => exact .inl (.writeStatus s v)
  | id | result | bsMax | blkCount | blkMask | list _ => exact .inl (.refl s)
  | _ => exact .inl (.dropWrite s)

/-- While a command runs, every event of the host and the platform keeps it or is a reset. -/
theorem hostMove_of_busy {e : HostEvent} {s t : State} (hbusy : s.busy = true) (h : hostMove e s = .next t) :
    KeepsCommand s t ∨ t = s.doReset := by
  cases e with
  | write offset width v =>
    rw [ifDefined_eq_next h]
    cases hreg : regAt offset with
    | none => rw [State.hostWrite_of_reserved hreg]; exact .inl (.refl s)
    | some r =>
      rw [State.hostWrite_of_regAt hreg, State.writeReg, if_pos hbusy]
      exact s.writeBusy_cases r v
  | read offset width => rw [ifDefined_eq_next h]; exact .inl ⟨rfl, rfl, id⟩
  | store addr b => cases h; exact .inl ⟨rfl, rfl, id⟩
  | waitIdle => cases h; exact .inl (.poll s _ _)
  | waitDone => cases h; exact .inl (.poll s _ _)
  | yield => cases h; exact .inl ⟨rfl, rfl, id⟩
  | reset => cases h; exact .inr rfl

/-- The block does not go on with a stuck command (20 R73). -/
theorem blockMove_of_stuck {s : State} {w : Word} (hcmd : s.command = some w) (hstuck : s.stuck = true) :
    blockMove s = .next s.pass := by
  simp only [blockMove, hcmd, hstuck, if_true]

/-- Settles O54: the block passes its turn, and an event of the host keeps the command or is a reset. -/
theorem stuckCommandEndsOnlyByReset : Obligations.StuckCommandEndsOnlyByReset := by
  intro s t w hcmd hstuck hstep
  rcases step_cases s with hblock | ⟨e, rest, -, hhost⟩
  · rw [hblock, blockMove_of_stuck hcmd hstuck] at hstep
    cases hstep
    exact .inl ⟨hcmd, hstuck, id⟩
  · have hbusy : State.busy { s with agenda := rest } = true := congrArg Option.isSome hcmd
    rcases hostMove_of_busy hbusy (hhost ▸ hstep) with ⟨hcommand, hstuck', hdone⟩ | rfl
    · exact .inl ⟨hcommand.trans hcmd, hstuck'.trans hstuck, hdone⟩
    · exact .inr ⟨State.regValue_doReset _, rfl, Nat.lt_succ_self s.draws⟩

end Sys2Proof.Machine
end


section
/-! SUPPORT. The command word (30_encoding.md R80-R85): the fields of a word as numbers, and the decoder as the inverse of the
encoder, row by row of the opcode map. -/

namespace Sys2Proof

/-! ### The fields of a word -/

@[simp] theorem opField_toNat (w : Word) : (opField w).toNat = w.toNat % 256 := by simp [opField]

@[simp] theorem argField_toNat (w : Word) : (argField w).toNat = w.toNat / 2 ^ 8 % 256 := by
  simp [argField, Nat.shiftRight_eq_div_pow]

theorem zField_eq_zero_iff (w : Word) : zField w = 0 ↔ w.toNat / 2 ^ 16 = 0 := by
  have hz : (zField w).toNat = w.toNat / 2 ^ 16 % 2 ^ 16 := by simp [zField, Nat.shiftRight_eq_div_pow]
  rw [← BitVec.toNat_inj, hz, Nat.mod_eq_of_lt (by omega)]
  rfl

/-- A word with Z = 0 is put together from A and OP (30 R80). -/
theorem word_eq_of_zField {w : Word} (hz : zField w = 0) :
    BitVec.ofNat 32 ((argField w).toNat * 2 ^ 8 + (opField w).toNat) = w := by
  have hhigh := (zField_eq_zero_iff w).1 hz
  apply BitVec.eq_of_toNat_eq
  rw [BitVec.toNat_ofNat, argField_toNat, opField_toNat]
  omega

/-! ### The rows of the opcode map -/

/-- The command stands in the row of the opcode `op`, with `a` as its A field in the row's legal range (30 R81). -/
structure Instr.HasFields (i : Instr) (op a : Byte) : Prop where
  op : opcode i = op
  arg : argument i = a
  legal : i.wellFormed = true

theorem Instr.HasFields.of_toNat {i : Instr} {op a : Byte} (hop : op.toNat = (opcode i).toNat)
    (harg : a.toNat = (argument i).toNat) (hlegal : i.wellFormed = true) : i.HasFields op a :=
  ⟨BitVec.eq_of_toNat_eq hop.symm, BitVec.eq_of_toNat_eq harg.symm, hlegal⟩

theorem hasFields_of_decodeNoOperand {op a : Byte} {i j : Instr} (hj : j.HasFields op 0)
    (h : decodeNoOperand a j = .ok i) : i.HasFields op a := by
  unfold decodeNoOperand at h
  split at h
  next ha => cases h; exact ha ▸ hj
  next => cases h

theorem hasFields_of_decodeCount {op a : Byte} {mk : Nat → Instr} {i : Instr}
    (hmk : ∀ n, n ≤ maxBitCount → (mk n).HasFields op (BitVec.ofNat 8 n)) (h : decodeCount a mk = .ok i) :
    i.HasFields op a := by
  unfold decodeCount at h
  split at h
  next hle => cases h; simpa using hmk a.toNat hle
  next => cases h

theorem hasFields_of_decodeComponent {a : Byte} {i : Instr} (h : decodeComponent a = .ok i) : i.HasFields 0x20 a := by
  unfold decodeComponent at h
  split at h
  next ha => cases h; exact ⟨rfl, ha.symm, rfl⟩
  split at h
  next ha => cases h; exact ⟨rfl, ha.symm, rfl⟩
  split at h
  next ha => cases h; exact ⟨rfl, ha.symm, rfl⟩
  next => cases h

theorem hasFields_of_decodeQmDefault {a : Byte} {i : Instr} (h : decodeQmDefault a = .ok i) : i.HasFields 0x30 a := by
  unfold decodeQmDefault at h
  split at h
  next hrange =>
    cases h
    obtain rfl | rfl | rfl : a = 1 ∨ a = 2 ∨ a = 3 := by bv_omega
    all_goals exact ⟨rfl, rfl, rfl⟩
  next => cases h

theorem hasFields_of_decodeQmLoad {a : Byte} {i : Instr} (h : decodeQmLoad a = .ok i) : i.HasFields 0x31 a := by
  unfold decodeQmLoad at h
  split at h
  next ha => cases h; exact ⟨rfl, ha.symm, rfl⟩
  split at h
  next ha => cases h; exact ⟨rfl, ha.symm, rfl⟩
  next => cases h

/-- One row of the opcode map: the word is of this row, or of one further down. -/
theorem hasFields_of_row {op a o : Byte} {i : Instr} {row rest : Except DecodeError Instr}
    (h : (if op = o then row else rest) = .ok i) (hrow : row = .ok i → i.HasFields o a)
    (hrest : rest = .ok i → i.HasFields op a) : i.HasFields op a := by
  by_cases hop : op = o
  · rw [if_pos hop] at h
    exact hop ▸ hrow h
  · rw [if_neg hop] at h
    exact hrest h

/-- What the opcode map answers stands in the row of the opcode, with the argument as its A field (30 R81, R84). -/
theorem hasFields_of_decodeRow {op a : Byte} {i : Instr} (h : decodeRow op a = .ok i) : i.HasFields op a := by
  refine hasFields_of_row h (hasFields_of_decodeNoOperand ⟨rfl, rfl, rfl⟩) fun h => ?_
  refine hasFields_of_row h (hasFields_of_decodeCount fun n hn => ⟨rfl, rfl, decide_eq_true hn⟩) fun h => ?_
  refine hasFields_of_row h (hasFields_of_decodeCount fun n hn => ⟨rfl, rfl, decide_eq_true hn⟩) fun h => ?_
  refine hasFields_of_row h (hasFields_of_decodeCount fun n hn => ⟨rfl, rfl, decide_eq_true hn⟩) fun h => ?_
  refine hasFields_of_row h (hasFields_of_decodeNoOperand ⟨rfl, rfl, rfl⟩) fun h => ?_
  refine hasFields_of_row h (hasFields_of_decodeNoOperand ⟨rfl, rfl, rfl⟩) fun h => ?_
  refine hasFields_of_row h (fun h => by cases h; exact ⟨rfl, rfl, rfl⟩) fun h => ?_
  refine hasFields_of_row h (hasFields_of_decodeNoOperand ⟨rfl, rfl, rfl⟩) fun h => ?_
  refine hasFields_of_row h (hasFields_of_decodeNoOperand ⟨rfl, rfl, rfl⟩) fun h => ?_
  refine hasFields_of_row h hasFields_of_decodeComponent fun h => ?_
  refine hasFields_of_row h (hasFields_of_decodeNoOperand ⟨rfl, rfl, rfl⟩) fun h => ?_
  refine hasFields_of_row h hasFields_of_decodeQmDefault fun h => ?_
  exact hasFields_of_row h hasFields_of_decodeQmLoad nofun

/-- The A field of a bit count in its range gives the count back (30 R84). -/
theorem decodeCount_ofNat {n : Nat} (mk : Nat → Instr) (h : n ≤ maxBitCount) :
    decodeCount (BitVec.ofNat 8 n) mk = .ok (mk n) := by
  have hn : (BitVec.ofNat 8 n).toNat = n := by
    rw [maxBitCount] at h
    rw [BitVec.toNat_ofNat, Nat.mod_eq_of_lt (by omega)]
  rw [decodeCount, hn, if_pos h]

/-- A well-formed command's opcode and argument decode to it (30 R81, R84). -/
theorem decodeRow_opcode_argument {i : Instr} (h : i.wellFormed = true) :
    decodeRow (opcode i) (argument i) = .ok i := by
  cases i with
  | peek n => exact decodeCount_ofNat .peek (of_decide_eq_true h)
  | consume n => exact decodeCount_ofNat .consume (of_decide_eq_true h)
  | get n => exact decodeCount_ofNat .get (of_decide_eq_true h)
  | decIntra cc => cases cc <;> rfl
  | qmDefault intra inter =>
    cases intra with
    | true => cases inter <;> rfl
    | false =>
      cases inter with
      | true => rfl
      | false => exact nomatch h
  | qmLoad m => cases m <;> rfl
  | _ => rfl

theorem decodeRow_eq_ok_iff {op a : Byte} {i : Instr} : decodeRow op a = .ok i ↔ i.HasFields op a := by
  refine ⟨hasFields_of_decodeRow, ?_⟩
  rintro ⟨rfl, rfl, hlegal⟩
  exact decodeRow_opcode_argument hlegal

/-! ### The decoder -/

/-- A word decodes to a command exactly when Z = 0 and OP and A are the fields of the command (30 R80, R82). -/
theorem decode_eq_ok_iff {w : Word} {i : Instr} :
    decode w = .ok i ↔ zField w = 0 ∧ i.HasFields (opField w) (argField w) := by
  unfold decode
  split
  next hz => rw [decodeRow_eq_ok_iff, and_iff_right hz]
  next hz => exact iff_of_false nofun fun h => hz h.1

/-- Settles O6: the fields of a command's word are the command's. -/
theorem decodeOfEncodeIsTheCommand : Obligations.DecodeOfEncodeIsTheCommand := by
  intro i hlegal
  obtain ⟨hz, harg, hop⟩ := Laws.EncodingFields.fields_of_word (argument i) (opcode i)
  exact decode_eq_ok_iff.2 ⟨hz, hop.symm, harg.symm, hlegal⟩

/-- Settles O7: the fields of the word are the command's, and with Z = 0 they make the word. -/
theorem encodeOfDecodeIsTheWord : Obligations.EncodeOfDecodeIsTheWord := by
  intro w i h
  obtain ⟨hz, hop, harg, hlegal⟩ := decode_eq_ok_iff.1 h
  refine ⟨?_, hlegal⟩
  rw [encode, hop, harg]
  exact word_eq_of_zField hz

/-! ### The legal words -/

/-- The opcodes and the legal ranges of A of the opcode map, as numbers (30 R81). -/
def InOpcodeMap (op a : Nat) : Prop :=
  (op ∈ [0x00, 0x04, 0x08, 0x10, 0x11, 0x21] ∧ a = 0) ∨ (op ∈ [0x01, 0x02, 0x03] ∧ a ≤ 32) ∨ op = 0x09 ∨
    (op = 0x20 ∧ a ≤ 2) ∨ (op = 0x30 ∧ 1 ≤ a ∧ a ≤ 3) ∨ (op = 0x31 ∧ 1 ≤ a ∧ a ≤ 2)

/-- The fields of a well-formed command lie in the opcode map. -/
theorem inOpcodeMap_of_wellFormed {i : Instr} (h : i.wellFormed = true) :
    InOpcodeMap (opcode i).toNat (argument i).toNat := by
  have hcount : ∀ {n}, n ≤ maxBitCount → (BitVec.ofNat 8 n).toNat ≤ 32 := fun hn => (Nat.mod_le _ _).trans hn
  cases i with
  | peek n => exact .inr (.inl ⟨by simp [opcode], hcount (of_decide_eq_true h)⟩)
  | consume n => exact .inr (.inl ⟨by simp [opcode], hcount (of_decide_eq_true h)⟩)
  | get n => exact .inr (.inl ⟨by simp [opcode], hcount (of_decide_eq_true h)⟩)
  | scanCode xx => exact .inr (.inr (.inl rfl))
  | decIntra cc => cases cc <;> exact .inr (.inr (.inr (.inl ⟨rfl, by decide⟩)))
  | qmDefault intra inter =>
    refine .inr (.inr (.inr (.inr (.inl ⟨rfl, ?_⟩))))
    revert h
    cases intra <;> cases inter <;> decide
  | qmLoad m => cases m <;> exact .inr (.inr (.inr (.inr (.inr ⟨rfl, by decide⟩))))
  | _ => exact .inl ⟨by decide, rfl⟩

/-- Every pair in the opcode map is the fields of a well-formed command. -/
theorem exists_hasFields_of_inOpcodeMap {op a : Byte} (h : InOpcodeMap op.toNat a.toNat) :
    ∃ i : Instr, i.HasFields op a := by
  rcases h with ⟨hop, ha⟩ | ⟨hop, ha⟩ | hop | ⟨hop, ha⟩ | ⟨hop, ha⟩ | ⟨hop, ha⟩
  · simp only [List.mem_cons, List.not_mem_nil, or_false] at hop
    rcases hop with hop | hop | hop | hop | hop | hop
    · exact ⟨.nop, .of_toNat hop ha rfl⟩
    · exact ⟨.align, .of_toNat hop ha rfl⟩
    · exact ⟨.scanAny, .of_toNat hop ha rfl⟩
    · exact ⟨.sliceHdr, .of_toNat hop ha rfl⟩
    · exact ⟨.dcReset, .of_toNat hop ha rfl⟩
    · exact ⟨.decNonintra, .of_toNat hop ha rfl⟩
  · have hfits : a.toNat = (BitVec.ofNat 8 a.toNat).toNat := by rw [BitVec.ofNat_toNat, BitVec.setWidth_eq]
    simp only [List.mem_cons, List.not_mem_nil, or_false] at hop
    rcases hop with hop | hop | hop
    · exact ⟨.peek a.toNat, .of_toNat hop hfits (decide_eq_true ha)⟩
    · exact ⟨.consume a.toNat, .of_toNat hop hfits (decide_eq_true ha)⟩
    · exact ⟨.get a.toNat, .of_toNat hop hfits (decide_eq_true ha)⟩
  · exact ⟨.scanCode a, .of_toNat hop rfl rfl⟩
  · obtain ha | ha | ha : a.toNat = 0 ∨ a.toNat = 1 ∨ a.toNat = 2 := by omega
    · exact ⟨.decIntra .y, .of_toNat hop ha rfl⟩
    · exact ⟨.decIntra .cb, .of_toNat hop ha rfl⟩
    · exact ⟨.decIntra .cr, .of_toNat hop ha rfl⟩
  · obtain ha | ha | ha : a.toNat = 1 ∨ a.toNat = 2 ∨ a.toNat = 3 := by omega
    · exact ⟨.qmDefault true false, .of_toNat hop ha rfl⟩
    · exact ⟨.qmDefault false true, .of_toNat hop ha rfl⟩
    · exact ⟨.qmDefault true true, .of_toNat hop ha rfl⟩
  · obtain ha | ha : a.toNat = 1 ∨ a.toNat = 2 := by omega
    · exact ⟨.qmLoad .intra, .of_toNat hop ha rfl⟩
    · exact ⟨.qmLoad .inter, .of_toNat hop ha rfl⟩

theorem exists_hasFields_iff_inOpcodeMap {op a : Byte} :
    (∃ i : Instr, i.HasFields op a) ↔ InOpcodeMap op.toNat a.toNat := by
  refine ⟨?_, exists_hasFields_of_inOpcodeMap⟩
  rintro ⟨i, rfl, rfl, hlegal⟩
  exact inOpcodeMap_of_wellFormed hlegal

/-- Settles O8: the legal words are those with Z = 0 whose fields lie in the opcode map. -/
theorem legalWordsAreTheOpcodeMap : Obligations.LegalWordsAreTheOpcodeMap := by
  intro w
  simp only [decode_eq_ok_iff, exists_and_left, exists_hasFields_iff_inOpcodeMap, zField_eq_zero_iff, opField_toNat,
    argField_toNat]
  rfl

/-- Settles O9, by running the decoder on each word. -/
theorem wordsOfTheSpecDecode : Obligations.WordsOfTheSpecDecode := by
  unfold Obligations.WordsOfTheSpecDecode
  decide

end Sys2Proof
end

section
/-! SUPPORT. Code tables on the stream (30_encoding.md R100-R104): at most one codeword starts at the cursor when none is the
start of another, and at least one does when the table covers every string. -/

namespace Sys2Proof.Machine

/-! ### At most one codeword -/

/-- The first bits of a longer number of the stream (20 R64). -/
theorem bitsValue_add_div (f : Nat → Bool) (i m k : Nat) : bitsValue f i (m + k) / 2 ^ k = bitsValue f i m := by
  induction k with
  | zero => simp
  | succ k ih =>
    have hlast : bitsValue f i (m + (k + 1)) / 2 = bitsValue f i (m + k) := by
      have := Bool.toNat_lt (f (i + (m + k)))
      rw [← Nat.add_assoc, bitsValue]
      omega
    rw [pow_succ', ← Nat.div_div_eq_div_mul, hlast, ih]

/-- The first bits of the stream, from more of them. -/
theorem State.streamNat_shiftRight {s : State} {m n : Nat} (h : m ≤ n) : s.streamNat n >>> (n - m) = s.streamNat m := by
  have hdiv := bitsValue_add_div s.streamBit s.off m (n - m)
  rwa [Nat.add_sub_cancel' h, ← Nat.shiftRight_eq_div_pow] at hdiv

/-- The stream does not start with two codewords of which none is the start of the other (30 R103). -/
theorem not_streamNat_of_codesApart {α : Type} {s : State} {a b : VlcRow α} (hab : codesApart a b = true)
    (ha : s.streamNat a.len = a.code) : s.streamNat b.len ≠ b.code := by
  intro hb
  unfold codesApart at hab
  split at hab
  next hle => exact bne_iff_ne.1 hab (by rw [← hb, State.streamNat_shiftRight hle, ha])
  next hlt => exact bne_iff_ne.1 hab (by rw [← ha, State.streamNat_shiftRight (Nat.le_of_not_le hlt), hb])

theorem pairwise_codesApart_of_prefixFree {α : Type} {table : List (VlcRow α)} (h : prefixFree table = true) :
    table.Pairwise fun a b => codesApart a b = true := by
  induction table with
  | nil => exact .nil
  | cons r rest ih =>
    obtain ⟨hr, hrest⟩ := Bool.and_eq_true_iff.1 h
    exact .cons (List.all_eq_true.1 hr) (ih hrest)

/-- When no codeword of a table is the start of another, at most one starts at the cursor (30 R103). -/
theorem row_eq_of_prefixFree {α : Type} {s : State} {table : List (VlcRow α)} {q r : VlcRow α}
    (hfree : prefixFree table = true) (hq : q ∈ table) (hr : r ∈ table) (hqs : s.streamNat q.len = q.code)
    (hrs : s.streamNat r.len = r.code) : q = r := by
  have hpairs : table.Pairwise fun a b => s.streamNat a.len = a.code → s.streamNat b.len = b.code → a = b :=
    (pairwise_codesApart_of_prefixFree hfree).imp fun hab ha hb => absurd hb (not_streamNat_of_codesApart hab ha)
  have hsymm : table.Pairwise fun a b => s.streamNat b.len = b.code → s.streamNat a.len = a.code → b = a :=
    hpairs.imp fun h hb ha => (h ha hb).symm
  exact hpairs.forall_of_forall_of_flip (fun _ _ _ _ => rfl) hsymm hq hr hqs hrs

/-! ### At least one codeword -/

/-- Every string that starts with the `len`-bit number `code` goes through a codeword of the table, met within `depth` more
bits: the number is a codeword, or both its continuations by a bit are covered. -/
def covers {α : Type} (table : List (VlcRow α)) : (depth len code : Nat) → Bool
  | 0, len, code => table.any fun r => r.len == len && r.code == code
  | depth + 1, len, code =>
    table.any (fun r => r.len == len && r.code == code) ||
      (covers table depth (len + 1) (2 * code) && covers table depth (len + 1) (2 * code + 1))

theorem exists_row_of_any {α : Type} {s : State} {table : List (VlcRow α)} {len : Nat}
    (h : (table.any fun r => r.len == len && r.code == s.streamNat len) = true) :
    ∃ r ∈ table, s.streamNat r.len = r.code := by
  obtain ⟨r, hr, hrow⟩ := List.any_eq_true.1 h
  obtain ⟨hlen, hcode⟩ := Bool.and_eq_true_iff.1 hrow
  exact ⟨r, hr, by rw [eq_of_beq hlen, eq_of_beq hcode]⟩

/-- A stream that starts with a covered string starts with a codeword. -/
theorem exists_row_of_covers {α : Type} {s : State} {table : List (VlcRow α)} {depth len : Nat}
    (h : covers table depth len (s.streamNat len) = true) : ∃ r ∈ table, s.streamNat r.len = r.code := by
  induction depth generalizing len with
  | zero => exact exists_row_of_any h
  | succ depth ih =>
    rw [covers, Bool.or_eq_true, Bool.and_eq_true] at h
    rcases h with hrow | ⟨hzero, hone⟩
    · exact exists_row_of_any hrow
    · have hnext : s.streamNat (len + 1) = 2 * s.streamNat len + (s.streamBit (s.off + len)).toNat := rfl
      refine ih (len := len + 1) ?_
      cases hbit : s.streamBit (s.off + len) with
      | false => rw [hnext, hbit]; exact hzero
      | true => rw [hnext, hbit]; exact hone

/-! ### The DC size tables -/

theorem prefixFree_dcTable (cc : Component) : prefixFree (dcTable cc) = true := by cases cc <;> decide

theorem covers_dcTable (cc : Component) : covers (dcTable cc) 10 0 0 = true := by cases cc <;> decide

/-- Settles O24: each DC size table covers the empty string, so every string, and none of its codewords is the start of
another. -/
theorem dcTablesAreComplete : Obligations.DcTablesAreComplete := by
  intro s cc
  obtain ⟨r, hr, hrs⟩ := exists_row_of_covers (s := s) (len := 0) (covers_dcTable cc)
  exact ⟨r, hr, hrs, fun q hq hqs => row_eq_of_prefixFree (prefixFree_dcTable cc) hq hr hqs hrs⟩

/-- Settles O60: the tables are the spec's, row by row. -/
theorem romTablesAreTheSpecs : Obligations.RomTablesAreTheSpecs := ⟨rfl, rfl, rfl, rfl, rfl⟩

end Sys2Proof.Machine
end

section
/-! SUPPORT. The bit reader's commands (40_bit_reader.md R130-R138) on a buffer that can be read and does not change: Peek gives
the stream's bits, and each command's exact next state. -/

namespace Sys2Proof.Machine

/-! ### Peek -/

/-- The platform rejects no byte of a readable buffer. -/
theorem State.not_rejects_of_readable {s : State} (h : s.readable) (i : Nat) : ¬s.rejects i := by
  rintro ⟨hi, hnone⟩
  have hsome := h.1 (i / 8) (by omega)
  rw [hnone] at hsome
  cases hsome

/-- A Peek gives the number that the next bits of the stream are (40 R130). -/
theorem State.peek_of_readable {s : State} (hq : s.quiet) (hr : s.readable) (n : Nat) : s.peek n = some (s.streamNat n) := by
  cases hpeek : s.peek n with
  | none =>
    obtain ⟨k, -, hk⟩ := (State.peek_eq_none_iff hq).1 hpeek
    exact absurd hk (State.not_rejects_of_readable hr _)
  | some v => exact congrArg some (State.peek_eq_some hq hpeek)

/-- The first bit of a number of the stream is its most significant (20 R64). -/
theorem testBit_bitsValue (f : Nat → Bool) (i : Nat) {k n : Nat} (h : k < n) :
    (bitsValue f i n).testBit (n - 1 - k) = f (i + k) := by
  have hsplit : k + 1 + (n - 1 - k) = n := by omega
  have hfirst : bitsValue f i n / 2 ^ (n - 1 - k) = bitsValue f i (k + 1) := by
    simpa only [hsplit] using bitsValue_add_div f i (k + 1) (n - 1 - k)
  rw [Nat.testBit_eq_decide_div_mod_eq, hfirst, bitsValue]
  cases f (i + k) <;> simp

/-- Settles O11: the number peeked is that of the stream's next bits. -/
theorem peekIsTheNextBitsOfTheStream : Obligations.PeekIsTheNextBitsOfTheStream := by
  intro s n hq hr _
  have hpeek := State.peek_of_readable hq hr n
  exact ⟨s.streamNat n, hpeek, State.peek_lt hpeek, fun k hk => testBit_bitsValue s.streamBit _ hk⟩

/-! ### The commands -/

/-- A command whose operand lies in its legal range runs its body (30 R81). -/
theorem ifLegal_of {legal : Prop} [Decidable legal] (h : legal) (body : State → Res Unit) (s : State) :
    ifLegal legal body s = body s := if_pos h

/-- Settles O10: the body of NOP goes on with the state as it is. -/
theorem nopOnlyCompletes : Obligations.NopOnlyCompletes :=
  fun s => runCommand_ok (body := fun s => .ok () s) (s := s) rfl

/-- Settles O12: RESULT gets the number peeked. -/
theorem peekPutsTheNextBitsInResult : Obligations.PeekPutsTheNextBitsInResult := by
  intro s n hq hr hn
  refine runCommand_ok ?_
  rw [ifLegal_of hn, peekBody, State.peek_of_readable hq hr]
  rfl

/-- Settles O14: `State.consume` names the cursor and MAX as R131 does. -/
theorem consumeAdvancesTheCursor : Obligations.ConsumeAdvancesTheCursor := by
  intro s n
  exact ⟨rfl, fun hn => runCommand_ok (ifLegal_of hn _ s)⟩

/-- Settles O15: a Get is a Peek and a Consume (40 R132). -/
theorem getReturnsTheBitsAndAdvances : Obligations.GetReturnsTheBitsAndAdvances := by
  intro s n hq hr hn
  have hget : s.get n = .ok (s.streamNat n) (s.consume n) := State.get_eq_ok.2 ⟨State.peek_of_readable hq hr n, rfl⟩
  refine runCommand_ok ?_
  rw [ifLegal_of hn, getBody, hget]
  rfl

/-- ALIGN completes with the cursor and the flag of Align. -/
theorem exec_align (s : State) : exec .align s = .next (s.align.complete .ok) :=
  runCommand_ok (body := fun s => .ok () s.align) rfl

/-- Settles O16: on a byte boundary Align leaves the state alone, and elsewhere it consumes the bits up to the next one. -/
theorem alignStopsOnTheNextByteBoundary : Obligations.AlignStopsOnTheNextByteBoundary := by
  intro s
  have hlt := s.bsOffset.isLt
  rw [exec_align]
  rcases s.align_cases with ⟨(hoff : s.bsOffset.toNat % 8 = 0), halign⟩ | ⟨(hoff : s.bsOffset.toNat % 8 ≠ 0), halign⟩
  · refine ⟨s.bsOffset, hoff, by omega, ?_⟩
    rw [halign, decide_eq_false (not_not.2 hoff), Bool.false_and, Bool.or_false]
  · have hnext : s.bsOffset.toNat + (8 - s.bsOffset.toNat % 8) = (s.bsOffset.toNat + 7) / 8 * 8 := by omega
    refine ⟨BitVec.ofNat 32 ((s.bsOffset.toNat + 7) / 8 * 8), ?_, BitVec.toNat_ofNat .., ?_⟩
    · rw [BitVec.toNat_ofNat]; omega
    · rw [halign, decide_eq_true hoff, Bool.true_and, ← hnext]
      rfl

end Sys2Proof.Machine
end

section
/-! SUPPORT. What a command writes (40 to 44, "Status written"): the bits of each register, the flags and host memory that a
command with given writes leaves alone, through every part of a command. -/

namespace Sys2Proof.Machine

/-! ### The implemented bits of a register -/

/-- The writes name every implemented bit of the register: outside them it reads 0 (10 R21). -/
def Writes.Covers (w : Writes) (r : Reg) : Prop := ∀ s : State, s.regValue r &&& ~~~w.mask r = 0

theorem and_not_mask_of_lt {x : Word} {n : Nat} (h : x.toNat < 2 ^ n) : x &&& ~~~BitVec.ofNat 32 (2 ^ n - 1) = 0 := by
  apply BitVec.eq_of_getLsbD_eq
  intro i hi
  by_cases hin : i < n
  · have hmask : (BitVec.ofNat 32 (2 ^ n - 1)).getLsbD i = true := by
      rw [BitVec.getLsbD_ofNat, Nat.testBit_two_pow_sub_one, decide_eq_true hi, decide_eq_true hin, Bool.and_self]
    rw [BitVec.getLsbD_and, BitVec.getLsbD_not, hmask]
    simp
  · have hx : x.getLsbD i = false :=
      Nat.testBit_lt_two_pow (h.trans_le (Nat.pow_le_pow_right (by decide) (Nat.not_lt.1 hin)))
    rw [BitVec.getLsbD_and, hx]
    simp

/-- A register whose values fit the bits that the writes name. -/
theorem Writes.Covers.of_lt {w : Writes} {r : Reg} {n : Nat} (hmask : w.mask r = BitVec.ofNat 32 (2 ^ n - 1))
    (hlt : ∀ s : State, (s.regValue r).toNat < 2 ^ n) : w.Covers r := fun s => by
  rw [hmask, and_not_mask_of_lt (hlt s)]

variable {w : Writes}

theorem Writes.covers_result (h : w.result = true) : w.Covers .result :=
  .of_lt (n := 32) (by rw [Writes.mask, h]; rfl) fun s => s.result.isLt

theorem Writes.covers_bsOffset (h : w.cursor = true) : w.Covers .bsOffset :=
  .of_lt (n := 32) (by rw [Writes.mask, h]; rfl) fun s => s.bsOffset.isLt

theorem Writes.covers_qscale (h : w.slice = true) : w.Covers .qscale :=
  .of_lt (n := 7) (by rw [Writes.mask, h]; rfl) fun s => (toNat_zeroExtend_word (by decide) s.qscale).trans_lt s.qscale.isLt

theorem Writes.covers_mbPos (h : w.slice = true) : w.Covers .mbPos :=
  .of_lt (n := 32) (by rw [Writes.mask, h]; rfl) fun s => (s.regValue .mbPos).isLt

theorem Writes.covers_dcPred {c : Component} (h : w.mask (.dcPred c) = 0xFFFF) : w.Covers (.dcPred c) :=
  .of_lt (n := 16) h fun s => (toNat_zeroExtend_word (by decide) (s.dcPred c)).trans_lt (s.dcPred c).isLt

theorem Writes.covers_blkCount (h : w.block = true) : w.Covers .blkCount :=
  .of_lt (n := 7) (by rw [Writes.mask, h]; rfl) fun s =>
    (toNat_zeroExtend_word (by decide) s.blkCount).trans_lt s.blkCount.isLt

theorem Writes.covers_blkMask (h : w.block = true) : w.Covers .blkMask :=
  .of_lt (n := 16) (by rw [Writes.mask, h]; rfl) fun s => by
    have := s.rowMask.isLt
    have := s.colMask.isLt
    rw [State.regValue, BitVec.toNat_ofNat]
    omega

theorem Writes.covers_list (h : w.block = true) (i : Nat) : w.Covers (.list i) :=
  .of_lt (n := 22) (by rw [Writes.mask, h]; rfl) fun s => by
    have := (s.entry i).value.isLt
    have := (s.entry i).pos.isLt
    rw [State.regValue, Entry.toWord, BitVec.toNat_ofNat]
    omega

theorem Writes.covers_matrix {m : WeightSel} {j : Nat} (h : w.mask (.matrix m j) = 0xFFFFFFFF) : w.Covers (.matrix m j) :=
  .of_lt (n := 32) h fun s => (s.regValue (.matrix m j)).isLt

/-- Every register but STATUS keeps its bits outside the writes, when it keeps its value or is covered by them. -/
theorem Writes.bits_kept {s t : State} (h : ∀ r, r ≠ .status → w.Covers r ∨ t.regValue r = s.regValue r) :
    ∀ r, r ≠ .status → t.regValue r &&& ~~~w.mask r = s.regValue r &&& ~~~w.mask r := by
  intro r hr
  rcases h r hr with hw | hval
  · rw [hw t, hw s]
  · rw [hval]

/-! ### The frame -/

/-- From `s` to `t` only what the writes name has changed, OVERRUN is not cleared, and CMDERR and host memory are as they
were. -/
structure Keeps (w : Writes) (s t : State) : Prop where
  regs : ∀ r, r ≠ .status → t.regValue r &&& ~~~w.mask r = s.regValue r &&& ~~~w.mask r
  cmdErr : t.cmdErr = s.cmdErr
  found : w.found = false → t.found = s.found
  overrun : w.cursor = false → t.overrun = s.overrun
  sticky : s.overrun = true → t.overrun = true
  mem : t.mem = s.mem

theorem Keeps.refl (s : State) : Keeps w s s := ⟨fun _ _ => rfl, rfl, fun _ => rfl, fun _ => rfl, id, rfl⟩

theorem Keeps.trans {s t u : State} (h : Keeps w s t) (k : Keeps w t u) : Keeps w s u where
  regs r hr := (k.regs r hr).trans (h.regs r hr)
  cmdErr := k.cmdErr.trans h.cmdErr
  found hw := (k.found hw).trans (h.found hw)
  overrun hw := (k.overrun hw).trans (h.overrun hw)
  sticky hs := k.sticky (h.sticky hs)
  mem := k.mem.trans h.mem

/-- The flags and host memory are as they were. -/
structure SameFlags (s t : State) : Prop where
  cmdErr : t.cmdErr = s.cmdErr
  found : t.found = s.found
  overrun : t.overrun = s.overrun
  mem : t.mem = s.mem

/-- An update of registers whose implemented bits the writes name. -/
theorem Keeps.of_regs {s t : State} (h : SameFlags s t)
    (hregs : ∀ r, r ≠ .status → w.Covers r ∨ t.regValue r = s.regValue r) : Keeps w s t where
  regs := Writes.bits_kept hregs
  cmdErr := h.cmdErr
  found _ := h.found
  overrun _ := h.overrun
  sticky hs := h.overrun.trans hs
  mem := h.mem

/-! ### The updates of the commands -/

theorem Keeps.consume (hcur : w.cursor = true) (s : State) (n : Nat) : Keeps w s (s.consume n) where
  regs := Writes.bits_kept fun r hr => by
    cases r with
    | status => exact absurd rfl hr
    | bsOffset => exact .inl (Writes.covers_bsOffset hcur)
    | _ => exact .inr rfl
  cmdErr := rfl
  found _ := rfl
  overrun hw := nomatch hcur.symm.trans hw
  sticky hs := by rw [State.consume_overrun, hs]; rfl
  mem := rfl

theorem Keeps.setResult (hres : w.result = true) (s : State) (v : Nat) : Keeps w s (s.setResult v) :=
  .of_regs ⟨rfl, rfl, rfl, rfl⟩ fun r _ => by
    cases r with
    | result => exact .inl (Writes.covers_result hres)
    | _ => exact .inr rfl

theorem Keeps.setScan (hres : w.result = true) (hfound : w.found = true) (s : State) (f : Bool) (c : Nat) :
    Keeps w s (s.setScan f c) where
  regs := Writes.bits_kept fun r hr => by
    cases r with
    | status => exact absurd rfl hr
    | result => exact .inl (Writes.covers_result hres)
    | _ => exact .inr rfl
  cmdErr := rfl
  found hw := nomatch hfound.symm.trans hw
  overrun _ := rfl
  sticky := id
  mem := rfl

theorem Keeps.enterRow (hslice : w.slice = true) (s : State) (row : Nat) : Keeps w s (s.enterRow row) := by
  unfold State.enterRow
  split
  · exact .refl s
  · exact .of_regs ⟨rfl, rfl, rfl, rfl⟩ fun r _ => by
      cases r with
      | mbPos => exact .inl (Writes.covers_mbPos hslice)
      | _ => exact .inr rfl

theorem Keeps.setQscale (hslice : w.slice = true) (s : State) (v : Nat) : Keeps w s (s.setQscale v) :=
  .of_regs ⟨rfl, rfl, rfl, rfl⟩ fun r _ => by
    cases r with
    | qscale => exact .inl (Writes.covers_qscale hslice)
    | _ => exact .inr rfl

theorem Keeps.setDcPred {c : Component} (hc : w.mask (.dcPred c) = 0xFFFF) (s : State) (v : BitVec 16) :
    Keeps w s (s.setDcPred c v) :=
  .of_regs ⟨by simp, by simp, by simp, by simp⟩ fun r _ => by
    by_cases hr : r = .dcPred c
    · exact .inl (hr ▸ Writes.covers_dcPred hc)
    · exact .inr (s.regValue_setDcPred_of_ne v hr)

theorem Keeps.dcReset (hpred : ∀ c, w.mask (.dcPred c) = 0xFFFF) (s : State) : Keeps w s s.dcReset :=
  .of_regs ⟨rfl, rfl, rfl, rfl⟩ fun r _ => by
    cases r with
    | dcPred c => exact .inl (Writes.covers_dcPred (hpred c))
    | _ => exact .inr rfl

theorem Keeps.setMatrix {m : WeightSel} (hm : ∀ j, w.mask (.matrix m j) = 0xFFFFFFFF) (s : State) (q : Vector Byte 64) :
    Keeps w s (s.setMatrix m q) :=
  .of_regs ⟨by simp, by simp, by simp, by simp⟩ fun r _ => by
    by_cases hr : ∃ j, r = .matrix m j
    · obtain ⟨j, rfl⟩ := hr
      exact .inl (Writes.covers_matrix (hm j))
    · exact .inr (s.regValue_setMatrix_of_ne q fun j hj => hr ⟨j, hj⟩)

/-- An update of the block output shows in its own registers only. -/
theorem Keeps.of_block (hblock : w.block = true) {s t : State} (h : SameFlags s t)
    (hother : ∀ r, r ≠ .blkCount → r ≠ .blkMask → (∀ i, r ≠ .list i) → t.regValue r = s.regValue r) : Keeps w s t :=
  .of_regs h fun r _ => by
    cases r with
    | blkCount => exact .inl (Writes.covers_blkCount hblock)
    | blkMask => exact .inl (Writes.covers_blkMask hblock)
    | list i => exact .inl (Writes.covers_list hblock i)
    | _ => exact .inr (hother _ nofun nofun nofun)

theorem Keeps.clearOutput (hblock : w.block = true) (s : State) : Keeps w s s.clearOutput :=
  .of_block hblock ⟨rfl, rfl, rfl, rfl⟩ fun r hcount hmask _ => by
    cases r with
    | blkCount => exact absurd rfl hcount
    | blkMask => exact absurd rfl hmask
    | _ => rfl

theorem Keeps.append (hblock : w.block = true) (s : State) (p : Nat) (v : Int) : Keeps w s (s.append p v) :=
  .of_block hblock ⟨rfl, rfl, rfl, rfl⟩ fun r hcount hmask hlist => by
    cases r with
    | blkCount => exact absurd rfl hcount
    | blkMask => exact absurd rfl hmask
    | list i => exact absurd rfl (hlist i)
    | _ => rfl

theorem Keeps.toggleLast (hblock : w.block = true) (s : State) : Keeps w s s.toggleLast :=
  .of_block hblock ⟨rfl, rfl, rfl, rfl⟩ fun r _ hmask hlist => by
    cases r with
    | blkMask => exact absurd rfl hmask
    | list i => exact absurd rfl (hlist i)
    | _ => rfl

theorem Keeps.mismatch (hblock : w.block = true) (s : State) (par : Bool) : Keeps w s (s.mismatch par) := by
  unfold State.mismatch
  split
  · exact .refl s
  · split
    · exact .toggleLast hblock s
    · exact .append hblock s 63 1

theorem Keeps.align (hcur : w.cursor = true) (s : State) : Keeps w s s.align := by
  rcases s.align_cases with ⟨-, halign⟩ | ⟨-, halign⟩ <;> rw [halign]
  · exact .refl s
  · exact .consume hcur s _

/-- QM_DEFAULT writes the matrices it selects (43 R231). -/
theorem Keeps.qmDefaults (intra inter : Bool) (s : State) :
    Keeps (writesOf (.qmDefault intra inter)) s (qmDefaults intra inter s) :=
  .of_regs ⟨rfl, rfl, rfl, rfl⟩ fun r _ => by
    cases r with
    | matrix m j =>
      cases m with
      | intra =>
        cases intra with
        | true => exact .inl (Writes.covers_matrix rfl)
        | false => exact .inr rfl
      | inter =>
        cases inter with
        | true => exact .inl (Writes.covers_matrix rfl)
        | false => exact .inr rfl
    | _ => exact .inr rfl

/-- A completion writes ERRCODE, which is a field of STATUS, and BUSY and DONE (70 R310). -/
theorem Keeps.complete (s : State) (c : ResultCode) : Keeps w s (s.complete c) :=
  .of_regs ⟨rfl, rfl, rfl, rfl⟩ fun r hr => by
    cases r with
    | status => exact absurd rfl hr
    | _ => exact .inr rfl

theorem Keeps.hang (s : State) : Keeps w s s.hang :=
  .of_regs ⟨rfl, rfl, rfl, rfl⟩ fun r _ => .inr (by cases r <;> rfl)

theorem Moves.keeps (hcur : w.cursor = true) {s t : State} (h : Moves s t) : Keeps w s t := by
  rcases h with rfl | ⟨n, rfl⟩
  · exact .refl t
  · exact .consume hcur s n

/-! ### The parts of the commands -/

/-- The rule of a sequence: each part writes only what the writes name. -/
theorem Keeps.andThen {α β : Type} {s : State} {r : Res α} {f : α → State → Res β} (h : r.Leaves (Keeps w s))
    (k : ∀ a t, (f a t).Leaves (Keeps w t)) : (r.andThen f).Leaves (Keeps w s) :=
  Res.Meets.andThen h fun a t ht => (k a t).mono (fun _ _ => ht.trans) (fun _ => ht.trans)

/-- The same for a part that starts from an update of the state. -/
theorem Keeps.leaves_of {α : Type} {s t : State} {r : Res α} (h : Keeps w s t) (k : r.Leaves (Keeps w t)) :
    r.Leaves (Keeps w s) := k.mono (fun _ _ => h.trans) (fun _ => h.trans)

theorem ifLegal_keeps {legal : Prop} [Decidable legal] {body : State → Res Unit} {s : State}
    (h : (body s).Leaves (Keeps w s)) : (ifLegal legal body s).Leaves (Keeps w s) := by
  unfold ifLegal
  split
  · exact h
  · exact Keeps.refl s

theorem peekBody_keeps (hres : w.result = true) (n : Nat) (s : State) : (peekBody n s).Leaves (Keeps w s) := by
  unfold peekBody
  split
  · trivial
  · exact Keeps.setResult hres s _

theorem State.get_keeps (hcur : w.cursor = true) (s : State) (n : Nat) : (s.get n).Leaves (Keeps w s) :=
  .intro (fun _ _ h => (Moves.of_get h).keeps hcur) fun c t h => absurd h (s.get_ne_error t n c)

theorem State.vlc_keeps {α : Type} (hcur : w.cursor = true) (s : State) (table : List (VlcRow α)) :
    (s.vlc table).Leaves (Keeps w s) :=
  .intro (fun _ _ h => (Moves.of_vlc h).keeps hcur) fun c t h => absurd h (s.vlc_ne_error t table c)

theorem getBody_keeps (hres : w.result = true) (hcur : w.cursor = true) (n : Nat) (s : State) :
    (getBody n s).Leaves (Keeps w s) :=
  Keeps.andThen (State.get_keeps hcur s n) fun v t => Keeps.setResult hres t v

/-! ### Scans -/

theorem scanLoop_keeps (hres : w.result = true) (hcur : w.cursor = true) (hfound : w.found = true) (probe : State → Probe)
    (fuel : Nat) (s : State) : (scanLoop probe fuel s).Leaves (Keeps w s) := by
  induction fuel generalizing s with
  | zero => exact Keeps.setScan hres hfound s false 0
  | succ fuel ih =>
    unfold scanLoop
    split
    · exact Keeps.setScan hres hfound s false 0
    · split
      · exact Keeps.setScan hres hfound s true _
      · trivial
      · exact (Keeps.consume hcur s 8).leaves_of (ih _)

theorem scan_keeps (hres : w.result = true) (hcur : w.cursor = true) (hfound : w.found = true) (probe : State → Probe)
    (s : State) : (scan probe s).Leaves (Keeps w s) :=
  (Keeps.align hcur s).leaves_of (scanLoop_keeps hres hcur hfound probe _ _)

/-! ### SLICE_HDR and QM_LOAD -/

theorem slicePosition_keeps (hcur : w.cursor = true) (s : State) : (slicePosition s).Leaves (Keeps w s) := by
  refine (Keeps.consume hcur s 24).leaves_of (Keeps.andThen (State.get_keeps hcur _ 8) fun xx t => ?_)
  split
  · exact Keeps.andThen (State.get_keeps hcur t 3) fun _ u => Keeps.refl u
  · exact Keeps.refl t

theorem extraLoop_keeps (hcur : w.cursor = true) (fuel : Nat) (s : State) : (extraLoop fuel s).Leaves (Keeps w s) := by
  induction fuel generalizing s with
  | zero => exact Keeps.andThen (State.get_keeps hcur s 1) fun _ t => Keeps.refl t
  | succ fuel ih =>
    refine Keeps.andThen (State.get_keeps hcur s 1) fun b t => ?_
    split
    · exact (Keeps.consume hcur t 8).leaves_of (ih _)
    · exact Keeps.refl t

theorem sliceHeader_keeps (s : State) : (sliceHeader s).Leaves (Keeps (writesOf .sliceHdr) s) := by
  have hpred : ∀ c, (writesOf .sliceHdr).mask (.dcPred c) = 0xFFFF := fun c => by cases c <;> rfl
  refine Keeps.andThen (slicePosition_keeps rfl s) fun pos t => (Keeps.setResult rfl t pos).leaves_of ?_
  dsimp only
  split
  · refine (Keeps.enterRow rfl _ _).leaves_of (Keeps.andThen (State.get_keeps rfl _ 5) fun q u => ?_)
    exact (Keeps.setQscale rfl u _).leaves_of (Keeps.andThen (extraLoop_keeps rfl _ _) fun _ v => Keeps.dcReset hpred v)
  · exact Keeps.refl _

theorem loadWeights_keeps {m : WeightSel} (hcur : w.cursor = true) (hm : ∀ j, w.mask (.matrix m j) = 0xFFFFFFFF)
    (ps : List Nat) (s : State) : (loadWeights m ps s).Leaves (Keeps w s) := by
  induction ps generalizing s with
  | nil => exact Keeps.refl s
  | cons p ps ih => exact Keeps.andThen (State.get_keeps hcur s 8) fun b t => (Keeps.setMatrix hm t _).leaves_of (ih _)

/-! ### The DEC commands -/

theorem escape_keeps (hcur : w.cursor = true) (s : State) : (escape s).Leaves (Keeps w s) := by
  unfold escape
  split
  · refine Keeps.andThen (State.get_keeps hcur s 6) fun _ t => ?_
    exact Keeps.andThen (State.get_keeps hcur t 12) fun _ u => Keeps.refl u
  · refine Keeps.andThen (State.get_keeps hcur s 6) fun _ t => Keeps.andThen (State.get_keeps hcur t 8) fun b1 u => ?_
    split
    · exact Keeps.andThen (State.get_keeps hcur u 8) fun _ v => Keeps.refl v
    · exact Keeps.refl u

theorem acSymbol_keeps (hcur : w.cursor = true) (table : AcTable) (s : State) : (acSymbol table s).Leaves (Keeps w s) := by
  refine Keeps.andThen (State.vlc_keeps hcur s table) fun sym t => ?_
  rcases sym with _ | _ | _ | ⟨run, a⟩
  · exact Keeps.refl t
  · exact Keeps.refl t
  · exact escape_keeps hcur t
  · exact Keeps.andThen (State.get_keeps hcur t 1) fun _ u => Keeps.refl u

theorem dcDiff_keeps (hcur : w.cursor = true) (cc : Component) (s : State) : (dcDiff cc s).Leaves (Keeps w s) := by
  refine Keeps.andThen (State.vlc_keeps hcur s _) fun size t => ?_
  rcases size with _ | _ | size
  · exact Keeps.refl t
  · exact Keeps.refl t
  · exact Keeps.andThen (State.get_keeps hcur t _) fun _ u => Keeps.refl u

theorem intraDc_keeps {cc : Component} (hcur : w.cursor = true) (hpred : w.mask (.dcPred cc) = 0xFFFF) (s : State) :
    (intraDc cc s).Leaves (Keeps w s) :=
  Keeps.andThen (dcDiff_keeps hcur cc s) fun _ t => Keeps.setDcPred hpred t _

theorem place_keeps (hblock : w.block = true) (intra : Bool) (run : Nat) (level : Int) (g : Progress) (s : State) :
    (place intra run level g s).Leaves (Keeps w s) := by
  unfold place
  dsimp only
  split
  · exact Keeps.refl s
  · exact Keeps.append hblock s _ _

theorem firstNonIntra_keeps (hcur : w.cursor = true) (hblock : w.block = true) (g : Progress) (s : State) :
    (firstNonIntra g s).Leaves (Keeps w s) := by
  unfold firstNonIntra
  split
  · trivial
  · split
    · refine (Keeps.consume hcur s 1).leaves_of (Keeps.andThen (State.get_keeps hcur _ 1) fun _ t => ?_)
      exact place_keeps hblock false 0 _ g t
    · exact Keeps.refl s

theorem acLoop_keeps (hcur : w.cursor = true) (hblock : w.block = true) (table : AcTable) (intra : Bool) (fuel : Nat)
    (g : Progress) (s : State) : (acLoop table intra fuel g s).Leaves (Keeps w s) := by
  induction fuel generalizing g s with
  | zero => exact Keeps.refl s
  | succ fuel ih =>
    refine Keeps.andThen (acSymbol_keeps hcur table s) fun sym t => ?_
    rcases sym with _ | _ | ⟨run, level⟩
    · exact Keeps.refl t
    · exact Keeps.refl t
    · exact Keeps.andThen (place_keeps hblock intra run level g t) ih

theorem finishBlock_keeps (hblock : w.block = true) (g : Progress) (s : State) : (finishBlock g s).Leaves (Keeps w s) := by
  unfold finishBlock
  split
  · exact Keeps.mismatch hblock s g.par
  · exact Keeps.refl s

theorem decIntra_keeps (table : AcTable) (cc : Component) (s : State) :
    (decIntra table cc s).Leaves (Keeps (writesOf (.decIntra cc)) s) := by
  have hpred : (writesOf (.decIntra cc)).mask (.dcPred cc) = 0xFFFF := by cases cc <;> rfl
  refine (Keeps.clearOutput rfl s).leaves_of (Keeps.andThen (intraDc_keeps rfl hpred _) fun dc t => ?_)
  refine Keeps.andThen (r := appendAt 1 0 dc ⟨0, false⟩ t) (Keeps.append rfl t 0 dc) fun g u => ?_
  exact Keeps.andThen (acLoop_keeps rfl rfl table true maxSymbols g u) fun g v => finishBlock_keeps rfl g v

theorem decNonintra_keeps (s : State) : (decNonintra s).Leaves (Keeps (writesOf .decNonintra) s) := by
  refine (Keeps.clearOutput rfl s).leaves_of (Keeps.andThen (firstNonIntra_keeps rfl rfl _ _) fun g t => ?_)
  exact Keeps.andThen (acLoop_keeps rfl rfl acTableZero false maxSymbols g t) fun g u => finishBlock_keeps rfl g u

/-! ### Every command -/

/-- A command whose body writes only what the writes name writes only that. -/
theorem Keeps.of_run {body : State → Res Unit} {s t : State} (h : runCommand body s = .next t)
    (hbody : (body s).Leaves (Keeps w s)) : Keeps w s t := by
  rcases runCommand_leaves h hbody with ⟨c, u, hu, rfl⟩ | rfl
  · exact hu.trans (.complete u c)
  · exact .hang s

/-- A command writes only what the "Status written" line of its rule lists. -/
theorem keeps_exec {i : Instr} {s t : State} (h : exec i s = .next t) : Keeps (writesOf i) s t := by
  cases i with
  | nop => exact .of_run (body := fun s => .ok () s) h (Keeps.refl s)
  | peek n => exact .of_run h (ifLegal_keeps (peekBody_keeps rfl n s))
  | consume n => exact .of_run h (ifLegal_keeps (Keeps.consume rfl s n))
  | get n => exact .of_run h (ifLegal_keeps (getBody_keeps rfl rfl n s))
  | align => exact .of_run (body := fun s => .ok () s.align) h (Keeps.align rfl s)
  | scanAny => exact .of_run h (scan_keeps rfl rfl rfl probeAny s)
  | scanCode xx => exact .of_run h (scan_keeps rfl rfl rfl (probeCode xx) s)
  | sliceHdr => exact .of_run h (sliceHeader_keeps s)
  | dcReset =>
    have hpred : ∀ c, (writesOf .dcReset).mask (.dcPred c) = 0xFFFF := fun c => by cases c <;> rfl
    exact .of_run (body := fun s => .ok () s.dcReset) h (Keeps.dcReset hpred s)
  | decIntra cc =>
    change execDecIntra cc s = .next t at h
    unfold execDecIntra at h
    split at h
    · cases h
    next table _ => exact .of_run h (decIntra_keeps table cc s)
  | decNonintra => exact .of_run h (decNonintra_keeps s)
  | qmDefault intra inter => exact .of_run h (ifLegal_keeps (Keeps.qmDefaults intra inter s))
  | qmLoad m =>
    have hm : ∀ j, (writesOf (.qmLoad m)).mask (.matrix m j) = 0xFFFFFFFF := fun j => by cases m <;> rfl
    exact .of_run h (loadWeights_keeps rfl hm zigzag s)

/-- Settles O42: every part of a command writes only what its rule lists, and so does the command. -/
theorem commandsWriteOnlyTheirRegisters : Obligations.CommandsWriteOnlyTheirRegisters := by
  intro i s t h
  have hkeeps := keeps_exec h
  exact ⟨hkeeps.regs, hkeeps.cmdErr, hkeeps.found, hkeeps.overrun, hkeeps.sticky, fun a => by rw [hkeeps.mem]⟩

end Sys2Proof.Machine
end

section
/-! SUPPORT. The start-code scanner (41_start_code.md R150-R153) on a buffer that can be read and does not change: what each test
of a scan finds, how far the loop goes, and the exact next state of both scans. -/

namespace Sys2Proof.Machine

/-! ### The cursor and the buffer -/

/-- An advance that stays at or before MAX moves the cursor and leaves OVERRUN alone (40 R131). -/
theorem State.consume_of_le {s : State} {n : Nat} (h : s.off + n ≤ s.maxBit) :
    s.consume n = { s with bsOffset := BitVec.ofNat 32 (s.off + n) } := by
  have hflag : overrunAfter s.overrun (s.off + n) s.maxBit = s.overrun := by
    simp [overrunAfter, Nat.not_lt.2 h]
  rw [State.consume, hflag]

theorem State.consume_off_of_le {s : State} {n : Nat} (h : s.off + n ≤ s.maxBit) : (s.consume n).off = s.off + n := by
  have := s.maxBit_lt
  rw [State.consume_off]
  omega

/-- Align leaves the cursor on a byte boundary (40 R133). -/
theorem State.align_off_mod (s : State) : s.align.off % 8 = 0 := by
  rcases s.align_cases with ⟨hoff, halign⟩ | ⟨hoff, halign⟩
  · rw [halign, hoff]
  · rw [halign, State.consume_off]
    omega

theorem SameBuffer.readable {s t : State} (h : SameBuffer s t) (hr : s.readable) : t.readable := by
  simpa only [State.readable, h.base, h.len, h.mem, h.earlier] using hr

/-! ### The tests -/

/-- A scan's test looks for `n` bits that are `marker` and lie before MAX, and answers the 32 bits at the cursor. -/
def FindsMarker (probe : State → Probe) (n marker : Nat) : Prop :=
  ∀ t : State, t.quiet → t.readable →
    probe t = if t.off + n ≤ t.maxBit ∧ t.streamNat n = marker then .code (t.streamNat 32) else .nothing

theorem probeAny_findsMarker : FindsMarker probeAny 24 0x000001 := by
  intro t hq hr
  simp only [probeAny, State.peek_of_readable hq hr, ite_and]

theorem probeCode_findsMarker (xx : Byte) : FindsMarker (probeCode xx) 32 (0x00000100 + xx.toNat) := by
  intro t hq hr
  simp only [probeCode, State.peek_of_readable hq hr, ite_and]

section
variable {probe : State → Probe} {n marker : Nat}

/-- The test at a position that the loop reaches, in the terms of the stream at its start. -/
theorem FindsMarker.probe_consume {s : State} {m : Nat} (hp : FindsMarker probe n marker) (hq : s.quiet) (hr : s.readable)
    (hm : s.off + m ≤ s.maxBit) : probe (s.consume m) =
      if s.off + m + n ≤ s.maxBit ∧ bitsValue s.streamBit (s.off + m) n = marker
      then .code (bitsValue s.streamBit (s.off + m) 32) else .nothing := by
  have hbuf := SameBuffer.consume s m
  have hstream (w : Nat) : (s.consume m).streamNat w = bitsValue s.streamBit (s.off + m) w := by
    rw [← State.consume_off_of_le hm, ← hbuf.streamBit]
    rfl
  rw [hp _ (hbuf.quiet hq) (hbuf.readable hr), State.consume_off_of_le hm, hbuf.maxBit, hstream, hstream]

/-! ### The loop -/

/-- The loop of a scan passes over the positions where its test finds nothing (41 R150, R151). -/
theorem scanLoop_skip {s : State} {fuel k : Nat} (hmax : s.off + 8 * k ≤ s.maxBit)
    (hnone : ∀ j, j < k → probe (s.consume (8 * j)) = .nothing) :
    scanLoop probe (fuel + k) s = scanLoop probe fuel (s.consume (8 * k)) := by
  induction k generalizing fuel with
  | zero => rw [Nat.mul_zero, State.consume_zero (by omega), Nat.add_zero]
  | succ k ih =>
    have hbefore : ¬(s.consume (8 * k)).maxBit ≤ (s.consume (8 * k)).off := by
      rw [State.consume_off_of_le (by omega), State.consume_maxBit]
      omega
    calc scanLoop probe (fuel + (k + 1)) s = scanLoop probe (fuel + 1 + k) s := by rw [Nat.add_comm k, Nat.add_assoc]
      _ = scanLoop probe (fuel + 1) (s.consume (8 * k)) :=
        ih (by omega) fun j hj => hnone j (Nat.lt_succ_of_lt hj)
      _ = scanLoop probe fuel ((s.consume (8 * k)).consume 8) := by
        simp only [scanLoop, if_neg hbefore, hnone k k.lt_succ_self]
      _ = scanLoop probe fuel (s.consume (8 * (k + 1))) := by rw [State.consume_consume, Nat.mul_succ]

/-- At and past MAX the loop ends without a code. -/
theorem scanLoop_of_maxBit_le {s : State} (h : s.maxBit ≤ s.off) (fuel : Nat) :
    scanLoop probe fuel s = .ok () (s.setScan false 0) := by
  cases fuel with
  | zero => rfl
  | succ fuel => exact if_pos h

/-- The loop ends where its test finds a code. -/
theorem scanLoop_of_code {s : State} {c : Nat} (hmax : s.off < s.maxBit) (h : probe s = .code c) (fuel : Nat) :
    scanLoop probe (fuel + 1) s = .ok () (s.setScan true c) := by
  simp only [scanLoop, if_neg (Nat.not_le.2 hmax), h]

/-! ### The scans -/

/-- A scan ends at the first position where its marker stands before MAX, with the 32 bits there (41 R150, R151). -/
theorem FindsMarker.scan_of_first {s : State} {k : Nat} (hp : FindsMarker probe n marker) (hn : 0 < n) (hq : s.quiet)
    (hr : s.readable) (hmax : s.align.off + 8 * k + n ≤ s.maxBit)
    (hmarker : bitsValue s.streamBit (s.align.off + 8 * k) n = marker)
    (hfirst : ∀ j, j < k → bitsValue s.streamBit (s.align.off + 8 * j) n ≠ marker) :
    scan probe s = .ok ()
      { s.align with
        bsOffset := BitVec.ofNat 32 (s.align.off + 8 * k)
        found := true
        result := BitVec.ofNat 32 (bitsValue s.streamBit (s.align.off + 8 * k) 32) } := by
  have hbuf := SameBuffer.align s
  have hq := hbuf.quiet hq
  have hr := hbuf.readable hr
  rw [← hbuf.maxBit] at hmax
  rw [← hbuf.streamBit] at hmarker hfirst ⊢
  have hnone : ∀ j, j < k → probe (s.align.consume (8 * j)) = .nothing := fun j hj => by
    rw [hp.probe_consume hq hr (by omega), if_neg fun h => hfirst j hj h.2]
  have hcode := (hp.probe_consume hq hr (m := 8 * k) (by omega)).trans (if_pos ⟨hmax, hmarker⟩)
  obtain ⟨fuel, hfuel⟩ : ∃ fuel, s.bsLen.toNat = fuel + 1 + k := by
    rw [hbuf.maxBit, State.maxBit] at hmax
    exact ⟨s.bsLen.toNat - (k + 1), by omega⟩
  have hbefore : (s.align.consume (8 * k)).off < (s.align.consume (8 * k)).maxBit := by
    rw [State.consume_off_of_le (by omega), State.consume_maxBit]
    omega
  rw [scan, hfuel, scanLoop_skip (by omega) hnone, scanLoop_of_code hbefore hcode, State.consume_of_le (by omega)]
  rfl

/-- A scan whose marker stands nowhere before MAX ends at MAX, or at an aligned cursor already past it (41 R150, R151). -/
theorem FindsMarker.scan_of_none {s : State} (hp : FindsMarker probe n marker) (hq : s.quiet) (hr : s.readable)
    (hnowhere : ∀ k, s.align.off + 8 * k + n ≤ s.maxBit → bitsValue s.streamBit (s.align.off + 8 * k) n ≠ marker) :
    scan probe s = .ok ()
      { s.align with
        bsOffset := BitVec.ofNat 32 (max s.align.off s.maxBit)
        found := false
        result := 0 } := by
  have hbuf := SameBuffer.align s
  rw [← hbuf.maxBit, ← hbuf.streamBit] at hnowhere
  rw [← hbuf.maxBit]
  rcases Nat.le_total s.align.maxBit s.align.off with hpast | hbefore
  · have hoff : BitVec.ofNat 32 s.align.off = s.align.bsOffset := BitVec.ofNat_toNat ..
    rw [scan, scanLoop_of_maxBit_le hpast, Nat.max_eq_left hpast, hoff]
    rfl
  · obtain ⟨k, hk⟩ : ∃ k, s.align.off + 8 * k = s.align.maxBit := by
      have haligned := s.align_off_mod
      unfold State.maxBit at hbefore ⊢
      exact ⟨s.align.bsLen.toNat - s.align.off / 8, by omega⟩
    have hnone : ∀ j, j < k → probe (s.align.consume (8 * j)) = .nothing := fun j hj => by
      rw [hp.probe_consume (hbuf.quiet hq) (hbuf.readable hr) (by omega), if_neg fun h => hnowhere j h.1 h.2]
    obtain ⟨fuel, hfuel⟩ : ∃ fuel, s.bsLen.toNat = fuel + k := by
      rw [hbuf.maxBit, State.maxBit] at hk
      exact ⟨s.bsLen.toNat - k, by omega⟩
    have hend : (s.align.consume (8 * k)).maxBit ≤ (s.align.consume (8 * k)).off := by
      rw [State.consume_off_of_le hk.le, State.consume_maxBit, hk]
    rw [scan, hfuel, scanLoop_skip hk.le hnone, scanLoop_of_maxBit_le hend, State.consume_of_le hk.le, hk,
      Nat.max_eq_right hbefore]
    rfl

end

/-- Settles O18: SCAN_ANY is the scan for the 24-bit marker. -/
theorem scanAnyStopsAtTheFirstStartCode : Obligations.ScanAnyStopsAtTheFirstStartCode := by
  intro s hq hr
  refine ⟨fun k hmax hmarker hfirst => ?_, fun hnowhere => ?_⟩
  · exact runCommand_ok (probeAny_findsMarker.scan_of_first (by decide) hq hr hmax hmarker hfirst)
  · exact runCommand_ok (probeAny_findsMarker.scan_of_none hq hr hnowhere)

/-- Settles O19: SCAN_CODE is the scan for the 32-bit code, and the 32 bits that it answers are that code. -/
theorem scanCodeStopsAtTheFirstMatch : Obligations.ScanCodeStopsAtTheFirstMatch := by
  intro s xx hq hr
  refine ⟨fun k hmax hmarker hfirst => ?_, fun hnowhere => ?_⟩
  · have hscan := (probeCode_findsMarker xx).scan_of_first (by decide) hq hr hmax hmarker hfirst
    rw [hmarker] at hscan
    exact runCommand_ok hscan
  · exact runCommand_ok ((probeCode_findsMarker xx).scan_of_none hq hr hnowhere)

end Sys2Proof.Machine
end

section
/-! SUPPORT. Codewords on a buffer that does not change (42_vld.md R170): what comparing the stream with a codeword tells, the row
that a search of a code table finds, and what a Vlc then answers. -/

namespace Sys2Proof.Machine

/-! ### One codeword -/

theorem bitsValue_lt (f : Nat → Bool) (i n : Nat) : bitsValue f i n < 2 ^ n := by
  induction n with
  | zero => exact Nat.one_pos
  | succ n ih =>
    have := (f (i + n)).toNat_lt
    rw [bitsValue]
    omega

/-- Numbers are the same when their top bits and the numbers below those are. -/
theorem toNat_mul_add_inj {b c : Bool} {m x y : Nat} (hx : x < m) (hy : y < m) :
    b.toNat * m + x = c.toNat * m + y ↔ b = c ∧ x = y := by
  cases b <;> cases c <;> simp <;> omega

/-- A comparison that does not fail tells whether the stream's bits are the low bits of the code, its first bit first. -/
theorem State.startsWith_eq_some {s : State} {site code len i : Nat} {b : Bool} (hq : s.quiet)
    (h : s.startsWith site code len i = some b) : b = decide (bitsValue s.streamBit i len = code % 2 ^ len) := by
  induction len generalizing i with
  | zero => cases h; simp [bitsValue, Nat.mod_one]
  | succ len ih =>
    have hlow := bitsValue_lt s.streamBit (i + 1) len
    have hcode := Nat.mod_lt code (Nat.two_pow_pos len)
    have hsplit : code % 2 ^ (len + 1) = (code.testBit len).toNat * 2 ^ len + code % 2 ^ len := by
      rw [Nat.mod_pow_succ, Nat.toNat_testBit, Nat.mul_comm, Nat.add_comm]
    simp only [bitsValue_succ_first, hsplit, toNat_mul_add_inj hlow hcode]
    rw [State.startsWith] at h
    split at h
    · cases h
    next first hbit =>
      obtain rfl := State.bit_eq_some hq hbit
      split at h
      next heq => simp only [ih h, heq, true_and]
      next hne =>
        cases h
        simp only [hne, false_and, decide_false]

/-- A bit of a readable buffer is read. -/
theorem State.bit_ne_none {s : State} (hq : s.quiet) (hr : s.readable) (site i : Nat) : s.bit site i ≠ none :=
  fun h => State.not_rejects_of_readable hr i ((State.bit_eq_none_iff hq).1 h)

theorem State.startsWith_ne_none {s : State} (hq : s.quiet) (hr : s.readable) (site code len i : Nat) :
    s.startsWith site code len i ≠ none := by
  induction len generalizing i with
  | zero => exact nofun
  | succ len ih =>
    rw [State.startsWith]
    split
    next hbit => exact absurd hbit (State.bit_ne_none hq hr site i)
    · split
      · exact ih _
      · exact nofun

/-! ### A table -/

/-- Every codeword of the table fits its length (30 R103). -/
def CodesFit {α : Type} (table : List (VlcRow α)) : Prop := ∀ r ∈ table, r.code < 2 ^ r.len

/-- The stream starts with the codeword of the row. -/
def State.matchesRow {α : Type} (s : State) (r : VlcRow α) : Bool := decide (s.streamNat r.len = r.code)

theorem State.matchesRow_iff {α : Type} {s : State} {r : VlcRow α} :
    s.matchesRow r = true ↔ s.streamNat r.len = r.code := decide_eq_true_iff

/-- A search that meets no rejected read finds the first row whose codeword the stream starts with. -/
theorem State.findRow_eq_some {α : Type} {s : State} {table : List (VlcRow α)} {site : Nat} {x : Option (VlcRow α)}
    (hq : s.quiet) (hfit : CodesFit table) (h : s.findRow table site = some x) : x = table.find? s.matchesRow := by
  induction table generalizing site with
  | nil => cases h; rfl
  | cons r rest ih =>
    obtain ⟨hr, hrest⟩ := List.forall_mem_cons.1 hfit
    have hrow {b : Bool} (hb : s.startsWith site r.code r.len s.off = some b) : b = s.matchesRow r := by
      rw [State.startsWith_eq_some hq hb, Nat.mod_eq_of_lt hr]; rfl
    rw [State.findRow] at h
    rw [List.find?_cons]
    split at h
    · cases h
    next hb => cases h; rw [← hrow hb]
    next hb => rw [← hrow hb]; exact ih hrest h

theorem State.findRow_ne_none {α : Type} {s : State} (hq : s.quiet) (hr : s.readable) (table : List (VlcRow α)) (site : Nat) :
    s.findRow table site ≠ none := by
  induction table generalizing site with
  | nil => exact nofun
  | cons r rest ih =>
    rw [State.findRow]
    split
    next hnone => exact absurd hnone (State.startsWith_ne_none hq hr _ _ _ _)
    · exact nofun
    · exact ih _

theorem State.findRow_of_readable {α : Type} {s : State} {table : List (VlcRow α)} (hq : s.quiet) (hr : s.readable)
    (hfit : CodesFit table) (site : Nat) : s.findRow table site = some (table.find? s.matchesRow) := by
  obtain ⟨x, hx⟩ := Option.ne_none_iff_exists'.1 (State.findRow_ne_none hq hr table site)
  rw [hx, State.findRow_eq_some hq hfit hx]

/-! ### Vlc -/

/-- A Vlc that answers a symbol has found its codeword at the cursor, also when other bytes cannot be read. -/
theorem State.row_of_vlc {α : Type} {s t : State} {table : List (VlcRow α)} {x : α} (hq : s.quiet) (hfit : CodesFit table)
    (h : s.vlc table = .ok (some x) t) : ∃ r ∈ table, r.sym = x ∧ s.streamNat r.len = r.code := by
  rcases State.vlc_eq_ok.1 h with ⟨hx, -, -⟩ | ⟨r, hx, -, hrow⟩
  · cases hx
  · have hfind := (State.findRow_eq_some hq hfit hrow).symm
    exact ⟨r, List.mem_of_find?_eq_some hfind, (Option.some.inj hx).symm, State.matchesRow_iff.1 (List.find?_some hfind)⟩

/-- When no codeword is the start of another, a Vlc answers the symbol of the one at the cursor and consumes it (42 R170). -/
theorem State.vlc_of_row {α : Type} {s : State} {table : List (VlcRow α)} {r : VlcRow α} (hq : s.quiet) (hr : s.readable)
    (hfit : CodesFit table) (hfree : prefixFree table = true) (hmem : r ∈ table) (hrow : s.streamNat r.len = r.code) :
    s.vlc table = .ok (some r.sym) (s.consume r.len) := by
  have hfind : table.find? s.matchesRow = some r := by
    cases hx : table.find? s.matchesRow with
    | none => exact absurd (State.matchesRow_iff.2 hrow) (List.find?_eq_none.1 hx r hmem)
    | some q =>
      have hqs := State.matchesRow_iff.1 (List.find?_some hx)
      rw [row_eq_of_prefixFree hfree (List.mem_of_find?_eq_some hx) hmem hqs hrow]
  rw [State.vlc, State.findRow_of_readable hq hr hfit, hfind]

/-- A Vlc answers INVALID exactly when no codeword stands at the cursor (42 R170). -/
theorem State.vlc_eq_none_iff {α : Type} {s : State} {table : List (VlcRow α)} (hq : s.quiet) (hr : s.readable)
    (hfit : CodesFit table) : s.vlc table = .ok none s ↔ ∀ r ∈ table, s.streamNat r.len ≠ r.code := by
  have hfind : s.vlc table = .ok none s ↔ table.find? s.matchesRow = none := by
    rw [State.vlc, State.findRow_of_readable hq hr hfit]
    cases table.find? s.matchesRow <;> simp
  rw [hfind, List.find?_eq_none]
  simp only [State.matchesRow_iff, ne_eq]

/-- A Get of a readable buffer gives the stream's number and advances (40 R132). -/
theorem State.get_of_readable {s : State} (hq : s.quiet) (hr : s.readable) (n : Nat) :
    s.get n = .ok (s.streamNat n) (s.consume n) := State.get_eq_ok.2 ⟨State.peek_of_readable hq hr n, rfl⟩

theorem State.get_consume_of_readable {s : State} (hq : s.quiet) (hr : s.readable) (m n : Nat) :
    (s.consume m).get n = .ok ((s.consume m).streamNat n) (s.consume (m + n)) := by
  have hbuf := SameBuffer.consume s m
  rw [State.get_of_readable (hbuf.quiet hq) (hbuf.readable hr), State.consume_consume]

end Sys2Proof.Machine
end

section
/-! SUPPORT. The DC differential and the AC symbols of the stream (42_vld.md R171-R176, R183): each codeword and each escape, with
what it decodes to and where it leaves the cursor. -/

namespace Sys2Proof.Machine

/-! ### The DC differential -/

theorem codesFit_dcTable (cc : Component) : CodesFit (dcTable cc) := by
  unfold CodesFit
  cases cc <;> decide

/-- The field's top bit tells the sign of the differential (30 R102). -/
theorem dcDifferential_eq (size bits : Nat) :
    dcDifferential size bits = if bits < 2 ^ (size - 1) then (bits : Int) - (2 ^ size - 1) else bits := by
  unfold dcDifferential
  simp only [Nat.div_eq_zero_iff, (Nat.two_pow_pos (size - 1)).ne', false_or]

theorem dcDiff_of_zero {cc : Component} {s t : State} (h : s.vlc (dcTable cc) = .ok (some 0) t) : dcDiff cc s = .ok 0 t := by
  rw [dcDiff, h]
  rfl

theorem dcDiff_of_succ {cc : Component} {s t : State} {n : Nat} (h : s.vlc (dcTable cc) = .ok (some (n + 1)) t) :
    dcDiff cc s = (t.get (n + 1)).andThen fun bits u => .ok (dcDifferential (n + 1) bits) u := by
  rw [dcDiff, h]
  rfl

/-- Settles O25: the row's codeword is found, and the size and its bits follow. -/
theorem dcDiffReadsSizeAndBits : Obligations.DcDiffReadsSizeAndBits := by
  refine ⟨⟨rfl, rfl, rfl⟩, fun s cc hq hr => ⟨?_, fun r bits hmem hrow hbits => ?_⟩⟩
  · obtain ⟨r, hmem, hrow, -⟩ := dcTablesAreComplete s cc
    exact ⟨r, hmem, hrow⟩
  · have hvlc := State.vlc_of_row hq hr (codesFit_dcTable cc) (prefixFree_dcTable cc) hmem hrow
    rcases hsize : r.sym with _ | n
    all_goals rw [hsize] at hvlc hbits
    · exact dcDiff_of_zero hvlc
    · rw [dcDiff_of_succ hvlc, State.get_consume_of_readable hq hr, Res.andThen_ok, dcDifferential_eq, ← hbits,
        if_neg n.succ_ne_zero]

/-- Settles O26: the field of a positive d is d itself, with its top bit set, and that of a negative d has it clear. -/
theorem dcDifferentialRoundTrips : Obligations.DcDifferentialRoundTrips := by
  intro size d hsize _ hlow hhigh
  obtain ⟨n, rfl⟩ := Nat.exists_eq_add_of_le' hsize
  have hpos : 0 < 2 ^ n := Nat.two_pow_pos n
  have hcast : ((2 ^ n : Nat) : Int) = 2 ^ n := by norm_cast
  rw [dcDifferential_eq]
  rw [Nat.add_sub_cancel] at hlow ⊢
  rw [pow_succ] at hhigh ⊢
  by_cases hd : 0 < d
  · rw [abs_of_pos hd] at hlow hhigh
    rw [if_pos hd, if_neg (by omega), Int.toNat_of_nonneg hd.le]
  · rw [abs_of_nonpos (by omega)] at hlow hhigh
    rw [if_neg hd, if_pos (by omega), Int.toNat_of_nonneg (by omega)]
    omega

/-! ### AC symbols -/

/-- The parts of the form of an AC table that decoding uses (30 R103, R105). -/
theorem of_acTableWellFormed {table : AcTable} (h : acTableWellFormed table = true) :
    CodesFit table ∧ prefixFree table = true ∧ ⟨6, 0b000001, .esc⟩ ∈ table := by
  simp only [acTableWellFormed, Bool.and_eq_true, List.all_eq_true, List.any_eq_true, decide_eq_true_eq] at h
  obtain ⟨⟨⟨hrows, hfree⟩, -⟩, r, hmem, hesc⟩ := h
  refine ⟨fun q hq => ?_, hfree, eq_of_beq hesc ▸ hmem⟩
  obtain ⟨⟨-, hfit⟩, -⟩ := hrows q hq
  exact hfit

/-! The symbol that each answer of the Vlc gives (42 R173). -/

theorem acSymbol_of_none {s t : State} {table : AcTable} (h : s.vlc table = .ok none t) :
    acSymbol table s = .ok .invalid t := by rw [acSymbol, h, Res.andThen_ok]

theorem acSymbol_of_eob {s t : State} {table : AcTable} (h : s.vlc table = .ok (some .eob) t) :
    acSymbol table s = .ok .eob t := by rw [acSymbol, h, Res.andThen_ok]

theorem acSymbol_of_esc {s t : State} {table : AcTable} (h : s.vlc table = .ok (some .esc) t) :
    acSymbol table s = escape t := by rw [acSymbol, h, Res.andThen_ok]

theorem acSymbol_of_runLevel {s t : State} {table : AcTable} {run a : Nat} (h : s.vlc table = .ok (some (.runLevel run a)) t) :
    acSymbol table s = (t.get 1).andThen fun sign u => .ok (.coeff run (if sign = 1 then -(a : Int) else a)) u := by
  rw [acSymbol, h, Res.andThen_ok]

/-- Settles O27: the table's form makes the row the one found, and the sign bit follows a run and level. -/
theorem acSymbolDecodesEveryCodeword : Obligations.AcSymbolDecodesEveryCodeword := by
  intro s table r hq hr hform hmem hrow
  obtain ⟨hfit, hfree, -⟩ := of_acTableWellFormed hform
  have hvlc := State.vlc_of_row hq hr hfit hfree hmem hrow
  refine ⟨fun hsym => ?_, fun run a hsym => ?_⟩
  · exact acSymbol_of_eob (hsym ▸ hvlc)
  · rw [acSymbol_of_runLevel (hsym ▸ hvlc), State.get_consume_of_readable hq hr, Res.andThen_ok]

/-! ### Escapes -/

/-- After the escape codeword the tail of the mode follows (42 R176). -/
theorem acSymbol_of_escape {s : State} {table : AcTable} (hq : s.quiet) (hr : s.readable)
    (hform : acTableWellFormed table = true) (hesc : s.streamNat 6 = 0b000001) :
    acSymbol table s = if s.cfg.mpeg2 then escape2 (s.consume 6) else escape1 (s.consume 6) := by
  obtain ⟨hfit, hfree, hmem⟩ := of_acTableWellFormed hform
  exact acSymbol_of_esc (State.vlc_of_row hq hr hfit hfree hmem hesc)

/-- The MPEG-2 tail is the run and a 12-bit level (42 R174). -/
theorem escape2_of_readable {s : State} (hq : s.quiet) (hr : s.readable) : escape2 (s.consume 6) =
    .ok (.coeff ((s.consume 6).streamNat 6) (signExtend 12 ((s.consume 12).streamNat 12))) (s.consume 24) := by
  simp only [escape2, State.get_consume_of_readable hq hr, Res.andThen_ok]

/-- The MPEG-1 tail is the run and an 8-bit level, or a second byte after 0x00 and 0x80 (42 R175). -/
theorem escape1_of_readable {s : State} (hq : s.quiet) (hr : s.readable) : escape1 (s.consume 6) =
    if (s.consume 12).streamNat 8 % 128 = 0 then
      .ok (.coeff ((s.consume 6).streamNat 6) (((s.consume 20).streamNat 8 : Int) - (s.consume 12).streamNat 8 * 2))
        (s.consume 28)
    else .ok (.coeff ((s.consume 6).streamNat 6) (signExtend 8 ((s.consume 12).streamNat 8))) (s.consume 20) := by
  simp only [escape1, State.get_consume_of_readable hq hr, Res.andThen_ok]

/-- Settles O28: the tail of the mode, and the first level byte decides the length of the MPEG-1 level. -/
theorem escapesDecodeRunAndLevel : Obligations.EscapesDecodeRunAndLevel := by
  rintro s table run b1 hq hr hform hesc rfl hb1
  have hbyte : b1 < 256 := hb1 ▸ bitsValue_lt _ _ 8
  have hsym := acSymbol_of_escape hq hr hform hesc
  rw [escape2_of_readable hq hr, escape1_of_readable hq hr, ← hb1] at hsym
  refine ⟨fun hmode v hv => ?_, fun hmode h00 h80 => ?_, fun hmode h00 => ?_, fun hmode h80 => ?_⟩
  · rw [hsym, if_pos hmode, ← hv]
    rfl
  · rw [hsym, if_neg (by simp [hmode]), if_neg (by omega)]
    rfl
  · rw [hsym, if_neg (by simp [hmode]), h00, if_pos rfl]
    simp
  · rw [hsym, if_neg (by simp [hmode]), h80, if_pos rfl]
    rfl

/-! ### The strings that AC_TABLE_ZERO leaves out -/

theorem codesFit_acTableZero : CodesFit acTableZero := by
  unfold CodesFit
  decide

/-- No codeword of AC_TABLE_ZERO starts with 12 zeros or is the start of 12 zeros (30 R104). -/
theorem acTableZero_apart_zeros : ∀ r ∈ acTableZero, codesApart ⟨12, 0, AcSym.eob⟩ r = true := by decide

/-- AC_TABLE_ZERO covers every string that starts with fewer than 12 zeros and a 1 (30 R104). -/
theorem covers_acTableZero : ∀ k < 12, covers acTableZero (15 - k) (k + 1) 1 = true := by decide

/-- A number of `n` bits that is not 0 starts with some zeros and a 1. -/
theorem exists_zeros_one {f : Nat → Bool} {i n : Nat} (h : bitsValue f i n ≠ 0) : ∃ k < n, bitsValue f i (k + 1) = 1 := by
  induction n with
  | zero => exact absurd rfl h
  | succ n ih =>
    by_cases hn : bitsValue f i n = 0
    · have hlast := (f (i + n)).toNat_lt
      refine ⟨n, n.lt_succ_self, ?_⟩
      rw [bitsValue, hn] at h ⊢
      omega
    · obtain ⟨k, hk, hone⟩ := ih hn
      exact ⟨k, Nat.lt_succ_of_lt hk, hone⟩

/-- No codeword of AC_TABLE_ZERO stands at the cursor exactly when 12 zeros do (30 R104). -/
theorem acTableZero_noRow_iff {s : State} :
    (∀ r ∈ acTableZero, s.streamNat r.len ≠ r.code) ↔ s.streamNat 12 = 0 := by
  constructor
  · intro hnone
    by_contra hne
    obtain ⟨k, hk, hone⟩ := exists_zeros_one hne
    have hcovers : covers acTableZero (15 - k) (k + 1) (s.streamNat (k + 1)) = true :=
      (congrArg _ hone).trans (covers_acTableZero k hk)
    obtain ⟨r, hmem, hrow⟩ := exists_row_of_covers hcovers
    exact hnone r hmem hrow
  · intro hzero r hmem
    exact not_streamNat_of_codesApart (acTableZero_apart_zeros r hmem) hzero

/-- An escape decodes to a coefficient (42 R174-R176). -/
theorem eq_coeff_of_escape {s t : State} {x : Symbol} (h : escape s = .ok x t) : ∃ run level, x = .coeff run level := by
  unfold escape at h
  split at h
  · obtain ⟨run, _, -, h⟩ := Res.andThen_eq_ok.1 h
    obtain ⟨level, _, -, h⟩ := Res.andThen_eq_ok.1 h
    cases h
    exact ⟨run, _, rfl⟩
  · obtain ⟨run, _, -, h⟩ := Res.andThen_eq_ok.1 h
    obtain ⟨b1, _, -, h⟩ := Res.andThen_eq_ok.1 h
    split at h
    · obtain ⟨b2, _, -, h⟩ := Res.andThen_eq_ok.1 h
      cases h
      exact ⟨run, _, rfl⟩
    · cases h
      exact ⟨run, _, rfl⟩

/-- An AC symbol is INVALID when the Vlc finds no codeword, and then nothing is consumed (42 R183). -/
theorem acSymbol_eq_invalid_iff {s t : State} {table : AcTable} :
    acSymbol table s = .ok .invalid t ↔ s.vlc table = .ok none s ∧ t = s := by
  constructor
  · intro h
    obtain ⟨x, u, hvlc, h⟩ := Res.andThen_eq_ok.1 h
    rcases x with _ | _ | _ | ⟨run, a⟩
    · cases h
      rcases State.vlc_eq_ok.1 hvlc with ⟨-, rfl, -⟩ | ⟨r, hr, -, -⟩
      · exact ⟨hvlc, rfl⟩
      · cases hr
    · cases h
    · obtain ⟨_, _, hcoeff⟩ := eq_coeff_of_escape h
      cases hcoeff
    · obtain ⟨_, _, -, h⟩ := Res.andThen_eq_ok.1 h
      cases h
  · rintro ⟨hvlc, rfl⟩
    exact acSymbol_of_none hvlc

/-- Settles O29: INVALID means that no codeword stands at the cursor, and so 12 zeros do. -/
theorem twelveZerosMatchNoCodeword : Obligations.TwelveZerosMatchNoCodeword := by
  intro s hq hr
  refine ⟨?_, fun t h => (acSymbol_eq_invalid_iff.1 h).2⟩
  rw [acSymbol_eq_invalid_iff, and_iff_left rfl, State.vlc_eq_none_iff hq hr codesFit_acTableZero, acTableZero_noRow_iff]

end Sys2Proof.Machine
end

section
/-! SUPPORT. Decoding a symbol from two states that agree on what it reads: the stream, OVERRUN and CFG (42_vld.md R170-R176). The
values and the cursors are the same, whatever the block output and the predictors hold. -/

namespace Sys2Proof.Machine

/-- The states agree on what decoding a symbol reads, and on the cursor's flag. -/
structure SameReader (s t : State) : Prop extends SameStream s t where
  overrun : s.overrun = t.overrun
  cfg : s.cfg = t.cfg

theorem SameReader.clearOutput (s : State) : SameReader s s.clearOutput := ⟨⟨rfl, rfl, rfl, rfl, rfl, rfl⟩, rfl, rfl⟩

theorem SameReader.append {s t : State} (h : SameReader s t) (p : Nat) (v : Int) : SameReader s (t.append p v) :=
  ⟨⟨h.base, h.len, h.off, h.mem, h.earlier, h.draws⟩, h.overrun, h.cfg⟩

theorem SameReader.setDcPred {s t : State} (h : SameReader s t) (c : Component) (v : BitVec 16) :
    SameReader s (t.setDcPred c v) := by
  obtain ⟨⟨hbase, hlen, hoff, hmem, hearlier, hdraws⟩, hoverrun, hcfg⟩ := h
  cases c <;> exact ⟨⟨hbase, hlen, hoff, hmem, hearlier, hdraws⟩, hoverrun, hcfg⟩

theorem SameReader.consume {s t : State} (h : SameReader s t) (n : Nat) : SameReader (s.consume n) (t.consume n) where
  base := h.base
  len := h.len
  off := by simp only [State.consume_bsOffset, State.off, h.off]
  mem := h.mem
  earlier := h.earlier
  draws := h.draws
  overrun := by simp only [State.consume_overrun, State.off, State.maxBit, h.off, h.len, h.overrun]
  cfg := h.cfg

/-! ### The parts -/

/-- When `r` goes on, `q` goes on with the same value from a state that agrees with that of `r`. -/
def Res.Follows {α : Type} (r q : Res α) : Prop := ∀ a s, r = .ok a s → ∃ t, q = .ok a t ∧ SameReader s t

theorem Res.Follows.ok {α : Type} {s t : State} (h : SameReader s t) (a : α) : (Res.ok a s).Follows (.ok a t) := by
  rintro _ _ ⟨⟩
  exact ⟨t, rfl, h⟩

theorem Res.Follows.error {α : Type} (c : ResultCode) (s : State) (q : Res α) : (Res.error c s).Follows q := by
  rintro _ _ ⟨⟩

theorem Res.Follows.andThen {α β : Type} {r q : Res α} {f g : α → State → Res β} (h : r.Follows q)
    (k : ∀ a s t, SameReader s t → (f a s).Follows (g a t)) : (r.andThen f).Follows (q.andThen g) := by
  intro b u hb
  obtain ⟨a, s, hr, hf⟩ := Res.andThen_eq_ok.1 hb
  obtain ⟨t, hq, hst⟩ := h a s hr
  obtain ⟨w, hg, huw⟩ := k a s t hst b u hf
  exact ⟨w, Res.andThen_eq_ok.2 ⟨a, t, hq, hg⟩, huw⟩

variable {s t : State}

theorem SameReader.get (h : SameReader s t) (n : Nat) : (s.get n).Follows (t.get n) := by
  intro v u hget
  obtain ⟨hpeek, rfl⟩ := State.get_eq_ok.1 hget
  exact ⟨t.consume n, State.get_eq_ok.2 ⟨h.peek n ▸ hpeek, rfl⟩, h.consume n⟩

theorem SameReader.vlc {α : Type} (h : SameReader s t) (table : List (VlcRow α)) : (s.vlc table).Follows (t.vlc table) := by
  intro x u hvlc
  rcases State.vlc_eq_ok.1 hvlc with ⟨hx, rfl, hrow⟩ | ⟨r, hx, rfl, hrow⟩
  · exact ⟨t, State.vlc_eq_ok.2 (.inl ⟨hx, rfl, h.findRow table _ ▸ hrow⟩), h⟩
  · exact ⟨t.consume r.len, State.vlc_eq_ok.2 (.inr ⟨r, hx, rfl, h.findRow table _ ▸ hrow⟩), h.consume r.len⟩

theorem SameReader.escape (h : SameReader s t) : (escape s).Follows (escape t) := by
  unfold Machine.escape
  rw [h.cfg]
  split
  · exact (h.get 6).andThen fun run _ _ h => (h.get 12).andThen fun level _ _ h => .ok h _
  · refine (h.get 6).andThen fun run _ _ h => (h.get 8).andThen fun b1 _ _ h => ?_
    split
    · exact (h.get 8).andThen fun b2 _ _ h => .ok h _
    · exact .ok h _

theorem SameReader.acSymbol_follows (h : SameReader s t) (table : AcTable) :
    (acSymbol table s).Follows (acSymbol table t) := by
  refine (h.vlc table).andThen fun sym _ _ h => ?_
  rcases sym with _ | _ | _ | ⟨run, a⟩
  · exact .ok h _
  · exact .ok h _
  · exact h.escape
  · exact (h.get 1).andThen fun sign _ _ h => .ok h _

theorem SameReader.dcDiff_follows (h : SameReader s t) (cc : Component) : (dcDiff cc s).Follows (dcDiff cc t) := by
  refine (h.vlc (dcTable cc)).andThen fun size _ _ h => ?_
  rcases size with _ | _ | n
  · exact .error _ _ _
  · exact .ok h _
  · exact (h.get (n + 1)).andThen fun bits _ _ h => .ok h _

/-! ### The state after a symbol -/

/-- A state that only the cursor has advanced in is given by its cursor and flag. -/
theorem Moves.eq_withCursorOf {s t u : State} (h : Moves s t) (k : SameReader u t) : t = s.withCursorOf u := by
  rcases h with rfl | ⟨n, rfl⟩
  · rw [State.withCursorOf, k.off, k.overrun]
  · rw [State.withCursorOf, k.off, k.overrun]
    rfl

/-- A symbol decodes from the second state as from the first. -/
theorem SameReader.acSymbol {u : State} {table : AcTable} {x : Symbol} (h : SameReader s t)
    (hsym : acSymbol table s = .ok x u) :
    acSymbol table t = .ok x (t.withCursorOf u) ∧ SameReader u (t.withCursorOf u) := by
  obtain ⟨w, ht, huw⟩ := h.acSymbol_follows table x u hsym
  rw [← (Moves.of_acSymbol ht).eq_withCursorOf huw]
  exact ⟨ht, huw⟩

/-- A DC differential decodes from the second state as from the first. -/
theorem SameReader.dcDiff {u : State} {cc : Component} {d : Int} (h : SameReader s t) (hdiff : dcDiff cc s = .ok d u) :
    dcDiff cc t = .ok d (t.withCursorOf u) ∧ SameReader u (t.withCursorOf u) := by
  obtain ⟨w, ht, huw⟩ := h.dcDiff_follows cc d u hdiff
  rw [← (Moves.of_dcDiff ht).eq_withCursorOf huw]
  exact ⟨ht, huw⟩

end Sys2Proof.Machine
end

section
/-! SUPPORT. Append and Place (42_vld.md R180, R181), and a DEC command on a block that parses: the coefficients it places and its
exact next state, for each of the block's three ends (42_vld.md R190-R193). -/

namespace Sys2Proof.Machine

/-! ### One coefficient -/

/-- A mask's update sets one bit and leaves the others (10 R33). -/
theorem getLsbD_or_twoPow_eq {mask : BitVec 8} {k : Nat} (hk : k < 8) (j : Nat) :
    (mask ||| BitVec.twoPow 8 k).getLsbD j = (mask.getLsbD j || decide (j = k)) := by
  rw [Bool.eq_iff_iff, getLsbD_or_twoPow hk, Bool.or_eq_true, decide_eq_true_iff, eq_comm (a := k)]

theorem place_of_le {intra : Bool} {run : Nat} {level : Int} {g : Progress} {s : State} (h : g.n + run ≤ 63) :
    place intra run level g s =
      .ok ⟨g.n + run + 1, g.par ^^ lowBit (s.iq level (s.scanTable.getD (g.n + run) 0) intra)⟩
        (s.append (s.scanTable.getD (g.n + run) 0) (s.iq level (s.scanTable.getD (g.n + run) 0) intra)) :=
  if_neg (Nat.not_lt.2 h)

theorem place_of_lt {intra : Bool} {run : Nat} {level : Int} {g : Progress} {s : State} (h : 63 < g.n + run) :
    place intra run level g s = .error .mbTexDecodeErr s := if_pos h

/-- Settles O57: the entry and the count by the laws of Append, the masks bit by bit, and the two cases of Place. -/
theorem placeAppendsOneEntry : Obligations.PlaceAppendsOneEntry := by
  refine ⟨fun s p v hp hlow hhigh hroom => ?_, ?_⟩
  · rw [State.entry_append_same hroom]
    exact ⟨toInt_ofInt_of_is12Bit ⟨hlow, hhigh⟩, Nat.mod_eq_of_lt hp, fun j hj => State.entry_append_of_ne hj,
      State.append_blkCount_toNat hroom, fun j _ => getLsbD_or_twoPow_eq (by omega) j,
      fun j _ => getLsbD_or_twoPow_eq (by omega) j, rfl⟩
  · rintro s intra run level g n p v rfl rfl rfl
    by_cases hn : g.n + run ≤ 63
    · rw [if_pos hn, place_of_le hn]
      rfl
    · rw [if_neg hn, place_of_lt (Nat.lt_of_not_le hn)]

/-! ### The coefficients of a block -/

/-- The states agree on what a coefficient's position and value depend on (42 R180, 43 R222). -/
structure SameQuant (s t : State) : Prop where
  cfg : t.cfg = s.cfg
  qscale : t.qscale = s.qscale
  qmIntra : t.qmIntra = s.qmIntra
  qmInter : t.qmInter = s.qmInter

theorem SameQuant.iq {s t : State} (h : SameQuant s t) (level : Int) (p : Nat) (intra : Bool) :
    t.iq level p intra = s.iq level p intra := by
  cases intra <;> simp only [State.iq, State.matrix, h.cfg, h.qscale, h.qmIntra, h.qmInter]

theorem SameQuant.placements {s t : State} (h : SameQuant s t) (intra : Bool) (n : Nat) (rest : List (Nat × Int)) :
    placements t intra n rest = placements s intra n rest := by
  induction rest generalizing n with
  | nil => rfl
  | cons c rest ih => simp only [Machine.placements, h.cfg, h.iq, ih]

theorem SameQuant.of_setDcPred {s t : State} (h : SameQuant s t) (c : Component) (v : BitVec 16) :
    SameQuant s (t.setDcPred c v) :=
  ⟨by simp [h.cfg], by simp [h.qscale], by simp [h.qmIntra], by simp [h.qmInter]⟩

/-- The parity of the values, one value after the other (43 R227). -/
theorem parity_cons (p : Nat) (v : Int) (entries : List (Nat × Int)) :
    parity ((p, v) :: entries) = (lowBit v ^^ parity entries) := by
  unfold parity lowBit
  rw [List.map_cons, List.sum_cons]
  generalize (entries.map (·.2)).sum = total
  rcases Int.emod_two_eq_zero_or_one v with hv | hv <;> rcases Int.emod_two_eq_zero_or_one total with ht | ht <;>
    simp [Int.add_emod, hv, ht]

/-- How a DEC command's body ends, with the coefficients placed in `t` (42 R182, R183, R190). -/
def endBlock (par : Bool) (t : State) : BlockEnd → Res Unit
  | .eob => .ok () (if t.cfg.mpeg2 then t.mismatch par else t)
  | .invalid => .error .vlcInvalid t
  | .overflow => .error .mbTexDecodeErr t

/-- The loop on a block that parses, from a state that reads the stream as the parse does: it places the block's coefficients
and ends as the block does. The scan index rises in each turn, so the fuel that is left is enough (42 R192). -/
theorem acLoop_of_parses {table : AcTable} {intra par : Bool} {fuel n : Nat} {s t u : State} {rest : List (Nat × Int)}
    {e : BlockEnd} (hparse : Parses table n s rest e u) (h : SameReader s t) (hn : n ≤ 64) (hfuel : 64 < n + fuel) :
    (acLoop table intra fuel ⟨n, par⟩ t).andThen finishBlock =
      endBlock (par ^^ parity (placements t intra n rest)) ((t.withCursorOf u).appendAll (placements t intra n rest)) e := by
  induction rest generalizing fuel n par s t with
  | nil =>
    obtain ⟨fuel, rfl⟩ := Nat.exists_eq_succ_of_ne_zero (show fuel ≠ 0 by omega)
    rw [acLoop, show parity (placements t intra n []) = false from rfl, Bool.xor_false]
    cases e with
    | eob => rw [(h.acSymbol hparse).1]; rfl
    | invalid => rw [(h.acSymbol hparse).1]; rfl
    | overflow =>
      obtain ⟨run, level, hsym, hover⟩ := hparse
      rw [(h.acSymbol hsym).1, Res.andThen_ok]
      dsimp only
      rw [place_of_lt hover]
      rfl
  | cons c rest ih =>
    obtain ⟨run, level⟩ := c
    obtain ⟨w, hsym, hle, hparse⟩ := hparse
    obtain ⟨fuel, rfl⟩ := Nat.exists_eq_succ_of_ne_zero (show fuel ≠ 0 by omega)
    obtain ⟨ht, hw⟩ := h.acSymbol hsym
    have hquant (p : Nat) (v : Int) : SameQuant t ((t.withCursorOf w).append p v) := ⟨rfl, rfl, rfl, rfl⟩
    rw [acLoop, ht, Res.andThen_ok]
    dsimp only
    rw [place_of_le hle, Res.andThen_ok, ih hparse (hw.append _ _) (by omega) (by omega), (hquant _ _).placements,
      Bool.xor_assoc, ← parity_cons (t.scanTable.getD (n + run) 0)]
    rfl

/-- A command whose body ends a block that way leaves the block's result (42 R190-R193). -/
theorem runCommand_of_endBlock {body : State → Res Unit} {s u : State} {entries : List (Nat × Int)} {e : BlockEnd}
    (hcfg : (u.emptyBlock.appendAll entries).cfg = u.cfg)
    (h : body s = endBlock (parity entries) (u.emptyBlock.appendAll entries) e) :
    runCommand body s = .next (blockResult u entries e) := by
  cases e with
  | eob =>
    rw [endBlock, hcfg] at h
    exact runCommand_ok h
  | invalid => exact runCommand_error h
  | overflow => exact runCommand_error h

theorem State.appendAll_cfg (s : State) (entries : List (Nat × Int)) : (s.appendAll entries).cfg = s.cfg := by
  induction entries generalizing s with
  | nil => rfl
  | cons c entries ih => exact ih _

/-! ### DEC_INTRA -/

theorem State.intraTable_eq {s : State} {table : AcTable}
    (hzero : s.cfg.mpeg2 = false ∨ s.cfg.intraVlcFormat = false → table = acTableZero)
    (hone : s.cfg.mpeg2 = true → s.cfg.intraVlcFormat = true → s.acTableOne = some table) : s.intraTable = some table := by
  unfold State.intraTable
  split
  next hsel =>
    obtain ⟨hmpeg2, hformat⟩ := Bool.and_eq_true_iff.1 hsel
    exact hone hmpeg2 hformat
  next hsel =>
    rw [hzero]
    simpa only [Bool.not_eq_true, Bool.and_eq_false_iff] using hsel

theorem exec_decIntra {cc : Component} {s : State} {table : AcTable} (h : s.intraTable = some table) :
    exec (.decIntra cc) s = runCommand (decIntra table cc) s := by
  simp only [exec, execDecIntra, h]

/-- IntraDC decodes the differential, updates the predictor and clips (42 R172). -/
theorem intraDc_of_dcDiff {cc : Component} {s t : State} {d : Int} (h : dcDiff cc s = .ok d t) :
    intraDc cc s = .ok (dcCoefficient (t.dcPred cc + BitVec.ofInt 16 d) t.cfg.intraDcPrecision)
      (t.setDcPred cc (t.dcPred cc + BitVec.ofInt 16 d)) := by
  rw [intraDc, h]
  rfl

theorem dcCoefficient_eq (pred : BitVec 16) (precision : BitVec 2) :
    dcCoefficient pred precision = max (-2048) (min 2047 (pred.toInt * 2 ^ (3 - precision.toNat))) := by
  unfold dcCoefficient clipS12
  omega

/-- Settles O30: the differential, the DC entry and the loop, each from the state that the command has made of `s`. -/
theorem decIntraDecodesTheBlock : Obligations.DecIntraDecodesTheBlock := by
  intro s v u cc table d rest e hzero hone hdiff hparse
  rw [exec_decIntra (State.intraTable_eq hzero hone), ← dcCoefficient_eq]
  refine runCommand_of_endBlock (State.appendAll_cfg _ _) ?_
  obtain ⟨hdiff, hread⟩ := (SameReader.clearOutput s).dcDiff hdiff
  have hpred : (s.clearOutput.withCursorOf v).dcPred cc = s.dcPred cc := by cases cc <;> rfl
  have hcfg : (s.clearOutput.withCursorOf v).cfg = s.cfg := rfl
  rw [decIntra, intraDc_of_dcDiff hdiff, hpred, hcfg, Res.andThen_ok, appendAt, Res.andThen_ok]
  generalize s.dcPred cc + BitVec.ofInt 16 d = pred
  generalize dcCoefficient pred s.cfg.intraDcPrecision = dc
  have hquant : SameQuant s (((s.clearOutput.withCursorOf v).setDcPred cc pred).append 0 dc) := by
    cases cc <;> exact ⟨rfl, rfl, rfl, rfl⟩
  have hstate : (((s.clearOutput.withCursorOf v).setDcPred cc pred).append 0 dc).withCursorOf u =
      ((s.setDcPred cc pred).withCursorOf u).emptyBlock.append 0 dc := by
    cases cc <;> rfl
  rw [acLoop_of_parses hparse ((hread.setDcPred cc _).append 0 _) (by decide) (by decide), hquant.placements, hstate,
    parity_cons, Bool.false_xor]
  rfl

/-! ### DEC_NONINTRA -/

theorem firstNonIntra_of_zero {g : Progress} {s : State} (hq : s.quiet) (hr : s.readable) (h : s.streamNat 1 = 0) :
    firstNonIntra g s = .ok g s := by
  rw [firstNonIntra, State.peek_of_readable hq hr, h]
  rfl

theorem firstNonIntra_of_one {g : Progress} {s : State} (hq : s.quiet) (hr : s.readable) (h : s.streamNat 1 = 1) :
    firstNonIntra g s = place false 0 (if (s.consume 1).streamNat 1 = 1 then -1 else 1) g (s.consume 2) := by
  rw [firstNonIntra, State.peek_of_readable hq hr, h]
  dsimp only
  rw [if_pos rfl, State.get_consume_of_readable hq hr, Res.andThen_ok]

/-- Settles O31: the first coefficient, when a 1 leads, and the loop from there. -/
theorem decNonintraDecodesTheBlock : Obligations.DecNonintraDecodesTheBlock := by
  intro s v u first rest e hq hr hfirst hparse
  have hbuf := SameBuffer.clearOutput s
  have hq := hbuf.quiet hq
  have hr := hbuf.readable hr
  have hread := SameReader.clearOutput s
  refine runCommand_of_endBlock (body := decNonintra) (State.appendAll_cfg _ _) ?_
  rw [decNonintra]
  rcases hfirst with ⟨hbit, rfl, rfl⟩ | ⟨hbit, rfl, rfl⟩
  · have hquant : SameQuant v v.clearOutput := ⟨rfl, rfl, rfl, rfl⟩
    rw [firstNonIntra_of_zero hq hr hbit, Res.andThen_ok, acLoop_of_parses (n := 0) hparse hread (by decide) (by decide),
      hquant.placements, Bool.false_xor]
    rfl
  · have hquant (p : Nat) (x : Int) : SameQuant s ((s.clearOutput.consume 2).append p x) := ⟨rfl, rfl, rfl, rfl⟩
    rw [firstNonIntra_of_one hq hr hbit, place_of_le (by decide), Res.andThen_ok]
    refine (acLoop_of_parses (n := 1) hparse ((hread.consume 2).append _ _) (by decide) (by decide)).trans ?_
    rw [(hquant _ _).placements, List.singleton_append, placements, parity_cons, Bool.false_xor]
    rfl

end Sys2Proof.Machine
end

section
/-! SUPPORT. Invariants of a DEC command's loop (42_vld.md R190-R192): the rule that carries a condition on the scan index and the
state through the loop, the positions that a block's entries hold, and the block that is never empty. -/

namespace Sys2Proof.Machine

/-! ### The codes a part ends a command with -/

/-- When the part ends the command, it does so with a code that meets `C`. -/
def Res.EndsWith {α : Type} (r : Res α) (C : ResultCode → Prop) : Prop := ∀ c t, r = .error c t → C c

section
variable {C : ResultCode → Prop}

theorem Res.EndsWith.ok {α : Type} (a : α) (s : State) : (Res.ok a s).EndsWith C := by
  intro c t h
  cases h

theorem Res.EndsWith.error {α : Type} {c : ResultCode} (h : C c) (s : State) : (Res.error c s : Res α).EndsWith C := by
  rintro _ _ ⟨⟩
  exact h

theorem Res.EndsWith.andThen {α β : Type} {r : Res α} {f : α → State → Res β} (h : r.EndsWith C)
    (k : ∀ a s, (f a s).EndsWith C) : (r.andThen f).EndsWith C := by
  intro c t hc
  rcases Res.andThen_eq_error.1 hc with hr | ⟨a, s, -, hf⟩
  · exact h c t hr
  · exact k a s c t hf

/-! Reading the stream and decoding a symbol end no command, so any condition on the code holds. -/

theorem State.get_endsWith (s : State) (n : Nat) : (s.get n).EndsWith C := fun c t h => absurd h (s.get_ne_error t n c)

theorem escape_endsWith (s : State) : (escape s).EndsWith C := by
  unfold escape
  split
  · exact (s.get_endsWith 6).andThen fun run t => (t.get_endsWith 12).andThen fun level u => .ok _ u
  · refine (s.get_endsWith 6).andThen fun run t => (t.get_endsWith 8).andThen fun b1 u => ?_
    split
    · exact (u.get_endsWith 8).andThen fun b2 w => .ok _ w
    · exact .ok _ u

theorem acSymbol_endsWith (table : AcTable) (s : State) : (acSymbol table s).EndsWith C := by
  refine Res.EndsWith.andThen (fun c t h => absurd h (s.vlc_ne_error t table c)) fun sym t => ?_
  rcases sym with _ | _ | _ | ⟨run, a⟩
  · exact .ok _ t
  · exact .ok _ t
  · exact escape_endsWith t
  · exact (t.get_endsWith 1).andThen fun sign u => .ok _ u

theorem acSymbol_ne_error (table : AcTable) (s t : State) (c : ResultCode) : acSymbol table s ≠ .error c t :=
  acSymbol_endsWith (C := fun _ => False) table s c t

end

/-! A block that does not end at EOB ends with a code other than OK (42 R181-R183). -/

theorem place_endsWith (intra : Bool) (run : Nat) (level : Int) (g : Progress) (s : State) :
    (place intra run level g s).EndsWith (· ≠ .ok) := by
  by_cases hn : g.n + run ≤ 63
  · rw [place_of_le hn]
    exact .ok _ _
  · rw [place_of_lt (Nat.lt_of_not_le hn)]
    exact .error (by decide) s

theorem firstNonIntra_endsWith (g : Progress) (s : State) : (firstNonIntra g s).EndsWith (· ≠ .ok) := by
  unfold firstNonIntra
  split
  · exact fun _ _ h => nomatch h
  · split
    · exact (State.get_endsWith _ 1).andThen fun sign t => place_endsWith false 0 _ g t
    · exact .ok g s

theorem acLoop_endsWith (table : AcTable) (intra : Bool) (fuel : Nat) (g : Progress) (s : State) :
    (acLoop table intra fuel g s).EndsWith (· ≠ .ok) := by
  induction fuel generalizing g s with
  | zero => exact .error (by decide) s
  | succ fuel ih =>
    refine (acSymbol_endsWith table s).andThen fun sym t => ?_
    rcases sym with _ | _ | ⟨run, level⟩
    · exact .error (by decide) t
    · exact .ok g t
    · exact (place_endsWith intra run level g t).andThen ih

/-- A DEC_NONINTRA body that ends at an error does not end with OK (42 R191). -/
theorem decNonintra_endsWith (s : State) : (decNonintra s).EndsWith (· ≠ .ok) :=
  (firstNonIntra_endsWith _ _).andThen fun g t =>
    (acLoop_endsWith acTableZero false maxSymbols g t).andThen fun _ _ => .ok () _

/-! ### The rule of the loop -/

/-- The condition `P` on the scan index and the state is kept by what the loop does, and where it holds the command may end
with `E`. -/
structure LoopInvariant (P : Nat → State → Prop) (E : State → Prop) : Prop where
  moves : ∀ {n t u}, P n t → Moves t u → P n u
  append : ∀ {n m t v}, P n t → n ≤ m → m ≤ 63 → Is12Bit v → P (m + 1) (t.append (t.scanTable.getD m 0) v)
  ends : ∀ {n t}, P n t → E t

section
variable {P : Nat → State → Prop} {E : State → Prop} {g : Progress} {t : State}

theorem LoopInvariant.place (h : LoopInvariant P E) (hP : P g.n t) (intra : Bool) (run : Nat) (level : Int) :
    (place intra run level g t).Meets (fun g u => P g.n u) E := by
  by_cases hn : g.n + run ≤ 63
  · rw [place_of_le hn]
    exact h.append hP (Nat.le_add_right _ _) hn (t.is12Bit_iq level _ intra)
  · rw [place_of_lt (Nat.lt_of_not_le hn)]
    exact h.ends hP

theorem LoopInvariant.firstNonIntra (h : LoopInvariant P E) (hP : P g.n t) :
    (firstNonIntra g t).Meets (fun g u => P g.n u) E := by
  unfold Machine.firstNonIntra
  split
  · trivial
  · split
    · have hget : ((t.consume 1).get 1).Meets (fun _ => P g.n) E :=
        .intro (fun _ _ hok => h.moves hP ((Moves.consume t 1).trans (.of_get hok)))
          fun c u herr => absurd herr (State.get_ne_error _ u 1 c)
      exact hget.andThen fun sign u hu => h.place hu false 0 _
    · exact hP

theorem LoopInvariant.acLoop (h : LoopInvariant P E) (hP : P g.n t) (table : AcTable) (intra : Bool) (fuel : Nat) :
    (acLoop table intra fuel g t).Meets (fun g u => P g.n u) E := by
  induction fuel generalizing g t with
  | zero => exact h.ends hP
  | succ fuel ih =>
    have hsym : (acSymbol table t).Meets (fun _ => P g.n) E :=
      .intro (fun _ _ hok => h.moves hP (.of_acSymbol hok)) fun c u herr => absurd herr (acSymbol_ne_error table t u c)
    refine hsym.andThen fun sym u hu => ?_
    rcases sym with _ | _ | ⟨run, level⟩
    · exact h.ends hu
    · exact hu
    · exact (h.place hu intra run level).andThen fun g w hw => ih hw

end

/-! ### How a DEC command ends -/

theorem exec_decIntra_fault_iff {cc : Component} {s : State} :
    exec (.decIntra cc) s = .fault .acTableOneMissing ↔ s.intraTable = none := by
  constructor
  · intro h
    by_contra hne
    obtain ⟨table, htable⟩ := Option.ne_none_iff_exists'.1 hne
    obtain ⟨t, ht⟩ := runCommand_next (decIntra table cc) s
    rw [exec_decIntra htable, ht] at h
    cases h
  · intro h
    simp only [exec, execDecIntra, h]

/-- Settles O32: the table is missing exactly when the AC_TABLE_ONE that is selected is not supplied. -/
theorem decIntraFaultsWithoutItsTable : Obligations.DecIntraFaultsWithoutItsTable := by
  intro s cc
  rw [exec_decIntra_fault_iff]
  constructor
  · intro hnone
    by_contra hsupplied
    obtain ⟨table, htable⟩ := State.intraTable_of_supplied hsupplied
    exact nomatch hnone.symm.trans htable
  · rintro ⟨hmpeg2, hformat, hnone⟩
    simp [State.intraTable, hmpeg2, hformat, hnone]

/-- A DEC command whose body leaves states that meet `P` completes one of them, or hangs. -/
theorem exec_dec_leaves {P : State → Prop} {i : Instr} {s t : State} (hi : i = .decNonintra ∨ ∃ cc, i = .decIntra cc)
    (hnonintra : (decNonintra s).Leaves P) (hintra : ∀ table cc, (decIntra table cc s).Leaves P)
    (h : exec i s = .next t) : (∃ c u, P u ∧ t = u.complete c) ∨ t = s.hang := by
  rcases hi with rfl | ⟨cc, rfl⟩
  · exact runCommand_leaves h hnonintra
  · cases htable : s.intraTable with
    | none =>
      rw [exec_decIntra_fault_iff.2 htable] at h
      cases h
    | some table => exact runCommand_leaves (exec_decIntra htable ▸ h) (hintra table cc)

/-! ### The positions of a block -/

/-- Both scans name each position once (30 R110, R111). -/
theorem State.scanTable_nodup (s : State) : s.scanTable.Nodup ∧ s.scanTable.length = 64 := by
  unfold State.scanTable
  split <;> decide

theorem State.scanTable_injective (s : State) {i j : Nat} (hi : i < 64) (hj : j < 64)
    (h : s.scanTable.getD i 0 = s.scanTable.getD j 0) : i = j := by
  obtain ⟨hnodup, hlength⟩ := s.scanTable_nodup
  rw [List.getD_eq_getElem _ _ (by omega), List.getD_eq_getElem _ _ (by omega)] at h
  exact hnodup.getElem_inj_iff.1 h

/-- No two entries below BLK_COUNT have the same position. -/
def DistinctPositions (t : State) : Prop :=
  ∀ j k, j < k → k < t.blkCount.toNat → (t.entry j).pos ≠ (t.entry k).pos

theorem DistinctPositions.of_empty {t : State} (h : t.blkCount = 0) : DistinctPositions t := by
  intro j k _ hk
  rw [h] at hk
  exact absurd hk (Nat.not_lt_zero k)

theorem DistinctPositions.of_sameOutput {t u : State} (h : DistinctPositions t) (k : SameOutput t u) :
    DistinctPositions u := by
  simpa only [DistinctPositions, k.blkCount, k.entry] using h

/-- An Append at a position that no entry has. -/
theorem DistinctPositions.append {t : State} {p : Nat} {v : Int} (h : DistinctPositions t) (hroom : t.blkCount.toNat < 64)
    (hp : p < 64) (hnew : ∀ i, i < t.blkCount.toNat → (t.entry i).pos.toNat ≠ p) : DistinctPositions (t.append p v) := by
  intro j k hjk hk
  rw [State.append_blkCount_toNat hroom] at hk
  rw [State.entry_append_of_ne (show j ≠ t.blkCount.toNat by omega)]
  by_cases hlast : k = t.blkCount.toNat
  · rw [hlast, State.entry_append_same hroom]
    intro heq
    refine hnew j (by omega) ?_
    rw [heq]
    exact Nat.mod_eq_of_lt hp
  · rw [State.entry_append_of_ne hlast]
    exact h j k hjk (by omega)

/-- The entries of the block stand at positions of scan indices below `n`, each at one of its own (42 R181). -/
structure InScanOrder (s : State) (n : Nat) (t : State) : Prop extends Building s n t where
  cfg : t.cfg = s.cfg
  below : ∀ i, i < t.blkCount.toNat → ∃ m < n, (t.entry i).pos.toNat = t.scanTable.getD m 0
  distinct : DistinctPositions t

theorem InScanOrder.of_empty {s t : State} (h : SameOutput s.clearOutput t) (hcfg : t.cfg = s.cfg) : InScanOrder s 0 t where
  toBuilding := (Building.clearOutput s).of_sameOutput h
  cfg := hcfg
  below i hi := by
    rw [h.blkCount] at hi
    exact absurd hi (Nat.not_lt_zero i)
  distinct := .of_empty h.blkCount

theorem Moves.cfg {s t : State} (h : Moves s t) : t.cfg = s.cfg := by
  rcases h with rfl | ⟨n, rfl⟩ <;> rfl

theorem State.scanTable_eq {s t : State} (h : t.cfg = s.cfg) : t.scanTable = s.scanTable := by
  simp only [State.scanTable, h]

/-- No entry stands at the position of a scan index that has not been reached. -/
theorem InScanOrder.pos_ne {s t : State} {n m i : Nat} (h : InScanOrder s n t) (hnm : n ≤ m) (hm : m < 64)
    (hi : i < t.blkCount.toNat) : (t.entry i).pos.toNat ≠ t.scanTable.getD m 0 := by
  obtain ⟨k, hk, hpos⟩ := h.below i hi
  rw [hpos]
  intro heq
  have := t.scanTable_injective (by omega) hm heq
  omega

theorem inScanOrder_loopInvariant (s : State) : LoopInvariant (InScanOrder s) DistinctPositions where
  moves {n t u} h hmoves :=
    { toBuilding := h.toBuilding.of_sameOutput hmoves.sameOutput
      cfg := hmoves.cfg.trans h.cfg
      below := by
        simpa only [hmoves.sameOutput.blkCount, hmoves.sameOutput.entry, State.scanTable_eq hmoves.cfg] using h.below
      distinct := h.distinct.of_sameOutput hmoves.sameOutput }
  append {n m t v} h hnm hm hv := by
    have hroom : t.blkCount.toNat < 64 := by have := h.count; omega
    have hp := t.scanTable_lt m
    refine ⟨h.toBuilding.append hnm hm hp (fun h63 => h63 ▸ t.scanTable_63) hv, h.cfg, fun i hi => ?_,
      h.distinct.append hroom hp fun i hi => h.pos_ne hnm (by omega) hi⟩
    rw [State.append_blkCount_toNat hroom] at hi
    by_cases hlast : i = t.blkCount.toNat
    · refine ⟨m, m.lt_succ_self, ?_⟩
      rw [hlast, State.entry_append_same hroom]
      exact Nat.mod_eq_of_lt hp
    · obtain ⟨k, hk, hpos⟩ := h.below i (by omega)
      refine ⟨k, by omega, ?_⟩
      rw [State.entry_append_of_ne hlast]
      exact hpos
  ends h := h.distinct

/-- The mismatch control appends at position 63 only when no entry stands there (43 R228, R229). -/
theorem InScanOrder.mismatch {s t : State} {n : Nat} (h : InScanOrder s n t) (par : Bool) :
    DistinctPositions (t.mismatch par) := by
  unfold State.mismatch
  split
  · exact h.distinct
  · split
    next => simpa only [DistinctPositions, State.toggleLast_blkCount, State.pos_toggleLast] using h.distinct
    next h63 =>
      have hn : n ≠ 64 := fun hn => h63 (h.full hn)
      have := h.count
      have := h.index
      refine h.distinct.append (by omega) (by decide) fun i hi => ?_
      rw [← t.scanTable_63]
      exact h.pos_ne (by omega) (by decide) hi

theorem InScanOrder.finishBlock {s t : State} {g : Progress} (h : InScanOrder s g.n t) :
    (finishBlock g t).Leaves DistinctPositions := by
  unfold Machine.finishBlock
  split
  · exact h.mismatch g.par
  · exact h.distinct

theorem decNonintra_distinct (s : State) : (decNonintra s).Leaves DistinctPositions :=
  ((inScanOrder_loopInvariant s).firstNonIntra (g := ⟨0, false⟩) (.of_empty (.refl _) rfl)).andThen fun _ _ ht =>
    ((inScanOrder_loopInvariant s).acLoop ht acTableZero false maxSymbols).andThen fun _ _ hu => hu.finishBlock

theorem intraDc_cfg {cc : Component} {s t : State} {dc : Int} (h : intraDc cc s = .ok dc t) : t.cfg = s.cfg := by
  obtain ⟨diff, u, hdiff, h⟩ := Res.andThen_eq_ok.1 h
  cases h
  rw [State.setDcPred_cfg]
  exact (Moves.of_dcDiff hdiff).cfg

theorem decIntra_distinct (table : AcTable) (cc : Component) (s : State) :
    (decIntra table cc s).Leaves DistinctPositions := by
  have houtput := intraDc_leaves cc s.clearOutput
  have hdc : (intraDc cc s.clearOutput).Meets (fun dc t => Is12Bit dc ∧ InScanOrder s 0 t) DistinctPositions := by
    refine .intro (fun dc t hok => ?_) fun c t herr => ?_
    · rw [hok] at houtput
      exact ⟨intraDc_is12Bit hok, .of_empty houtput ((intraDc_cfg hok).trans s.clearOutput_cfg)⟩
    · rw [herr] at houtput
      exact .of_empty houtput.blkCount
  refine hdc.andThen fun dc t ⟨hv, ht⟩ => ?_
  have hfirst : t.scanTable.getD 0 0 = 0 := by
    unfold State.scanTable
    split <;> rfl
  have happend := (inScanOrder_loopInvariant s).append ht (le_refl 0) (by decide) hv
  rw [hfirst] at happend
  exact ((inScanOrder_loopInvariant s).acLoop (g := ⟨1, _⟩) happend table true maxSymbols).andThen
    fun _ _ hu => hu.finishBlock

/-- Settles O35: both bodies leave distinct positions, with any code, and the completion keeps them. -/
theorem blockPositionsAreDistinct : Obligations.BlockPositionsAreDistinct := by
  intro i s t hi hexec hstuck
  rcases exec_dec_leaves hi (decNonintra_distinct s) (fun table cc => decIntra_distinct table cc s) hexec with
    ⟨c, u, hu, rfl⟩ | rfl
  · exact hu.of_sameOutput (.complete u c)
  · cases hstuck

/-! ### A non-intra block is not empty -/

/-- The EOB codeword of AC_TABLE_ZERO does not start with a 0 (42 R197). -/
theorem acTableZero_eob_apart_zero :
    ∀ r ∈ acTableZero, r.sym = .eob → codesApart ⟨1, 0, AcSym.eob⟩ r = true := by decide

/-- An AC symbol is EOB when the Vlc answers EOB. -/
theorem vlc_of_acSymbol_eob {s t : State} {table : AcTable} (h : acSymbol table s = .ok .eob t) :
    s.vlc table = .ok (some .eob) t := by
  obtain ⟨x, u, hvlc, h⟩ := Res.andThen_eq_ok.1 h
  rcases x with _ | _ | _ | ⟨run, a⟩
  · cases h
  · cases h
    exact hvlc
  · obtain ⟨_, _, hcoeff⟩ := eq_coeff_of_escape h
    cases hcoeff
  · obtain ⟨_, _, -, h⟩ := Res.andThen_eq_ok.1 h
    cases h

theorem acSymbol_ne_eob_of_zero {s : State} (hq : s.quiet) (hzero : s.streamNat 1 = 0) (t : State) :
    acSymbol acTableZero s ≠ .ok .eob t := by
  intro h
  obtain ⟨r, hmem, hsym, hrow⟩ := State.row_of_vlc hq codesFit_acTableZero (vlc_of_acSymbol_eob h)
  exact not_streamNat_of_codesApart (acTableZero_eob_apart_zero r hmem hsym) hzero hrow

/-- The block output is under way and has an entry. -/
def HasEntry (s : State) (n : Nat) (t : State) : Prop := Building s n t ∧ 0 < t.blkCount.toNat

/-- A coefficient makes the block output have an entry. -/
theorem HasEntry.of_append {s t : State} {n m : Nat} {v : Int} (h : Building s n t) (hnm : n ≤ m) (hm : m ≤ 63)
    (hv : Is12Bit v) : HasEntry s (m + 1) (t.append (t.scanTable.getD m 0) v) := by
  have hcount := h.count
  refine ⟨h.append hnm hm (t.scanTable_lt m) (fun h63 => h63 ▸ t.scanTable_63) hv, ?_⟩
  rw [State.append_blkCount_toNat (by omega)]
  exact Nat.succ_pos _

theorem hasEntry_loopInvariant (s : State) : LoopInvariant (HasEntry s) fun _ => True where
  moves h hmoves := ⟨h.1.of_sameOutput hmoves.sameOutput, by rw [hmoves.sameOutput.blkCount]; exact h.2⟩
  append h := HasEntry.of_append h.1
  ends _ := trivial

theorem HasEntry.of_place {s t : State} {intra : Bool} {run : Nat} {level : Int} {g : Progress} (h : Building s g.n t) :
    (place intra run level g t).Meets (fun g u => HasEntry s g.n u) fun _ => True := by
  by_cases hn : g.n + run ≤ 63
  · rw [place_of_le hn]
    exact HasEntry.of_append h (Nat.le_add_right _ _) hn (t.is12Bit_iq level _ intra)
  · rw [place_of_lt (Nat.lt_of_not_le hn)]
    trivial

theorem HasEntry.of_firstNonIntra {s t : State} {g : Progress} (h : Building s g.n t) (hq : t.quiet) :
    (firstNonIntra g t).Meets
      (fun g u => HasEntry s g.n u ∨ Building s g.n u ∧ u.quiet ∧ u.streamNat 1 = 0) fun _ => True := by
  unfold firstNonIntra
  split
  · trivial
  next b hpeek =>
    split
    · have hget : ((t.consume 1).get 1).Meets (fun _ => Building s g.n) fun _ => True :=
        ((h.of_sameOutput (.consume t 1)).leaves (State.get_leaves _ 1)).mono (fun _ _ => id) fun _ _ => trivial
      exact hget.andThen fun sign u hu => (HasEntry.of_place hu).mono (fun _ _ => .inl) fun _ => id
    next hb =>
      have hlt := State.peek_lt hpeek
      have hbit : b = t.streamNat 1 := State.peek_eq_some hq hpeek
      exact .inr ⟨h, hq, by omega⟩

/-- At a bit 0 the loop's first symbol is no EOB, so that the loop places a coefficient before one. -/
theorem HasEntry.of_acLoop {s t : State} {g : Progress} {fuel : Nat} (h : Building s g.n t) (hq : t.quiet)
    (hzero : t.streamNat 1 = 0) :
    (acLoop acTableZero false fuel g t).Meets (fun g u => HasEntry s g.n u) fun _ => True := by
  cases fuel with
  | zero => trivial
  | succ fuel =>
    have hsym : (acSymbol acTableZero t).Meets (fun sym u => sym ≠ .eob ∧ Building s g.n u) fun _ => True :=
      .intro (fun sym u hok => ⟨fun heob => acSymbol_ne_eob_of_zero hq hzero u (heob ▸ hok),
        h.of_sameOutput (Moves.of_acSymbol hok).sameOutput⟩) fun _ _ _ => trivial
    refine hsym.andThen fun sym u ⟨hne, hu⟩ => ?_
    rcases sym with _ | _ | ⟨run, level⟩
    · trivial
    · exact absurd rfl hne
    · exact (HasEntry.of_place hu).andThen fun g w hw => (hasEntry_loopInvariant s).acLoop hw acTableZero false fuel

/-- Mismatch control takes no entry away (43 R228). -/
theorem HasEntry.finishBlock {s t : State} {g : Progress} (h : HasEntry s g.n t) :
    (finishBlock g t).Meets (fun _ u => 0 < u.blkCount.toNat) fun _ => True := by
  obtain ⟨hbuild, hpos⟩ := h
  unfold Machine.finishBlock
  split
  · unfold State.mismatch
    split
    · exact hpos
    · split
      · exact hpos
      next h63 =>
        have hn : g.n ≠ 64 := fun hn => h63 (hbuild.full hn)
        have := hbuild.count
        have := hbuild.index
        change 0 < (t.append 63 1).blkCount.toNat
        rw [State.append_blkCount_toNat (by omega)]
        exact Nat.succ_pos _
  · exact hpos

theorem decNonintra_hasEntry {s : State} (hq : s.quiet) :
    (decNonintra s).Meets (fun _ u => 0 < u.blkCount.toNat) fun _ => True := by
  refine (HasEntry.of_firstNonIntra (g := ⟨0, false⟩) (Building.clearOutput s) hq).andThen fun g t ht => ?_
  have hloop : (acLoop acTableZero false maxSymbols g t).Meets (fun g u => HasEntry s g.n u) fun _ => True := by
    rcases ht with hentry | ⟨hbuild, hq, hzero⟩
    · exact (hasEntry_loopInvariant s).acLoop hentry acTableZero false maxSymbols
    · exact HasEntry.of_acLoop hbuild hq hzero
  exact hloop.andThen fun g u hu => hu.finishBlock

/-- Settles O33: no EOB codeword starts with a 0, and OK means that the body went on to its end. -/
theorem nonintraBlockHasACoefficient : Obligations.NonintraBlockHasACoefficient := by
  refine ⟨fun s t hq hzero => acSymbol_ne_eob_of_zero hq hzero t, fun s t hq hexec hstuck hok => ?_⟩
  rcases runCommand_cases.1 hexec with ⟨u, hbody, rfl⟩ | ⟨c, u, hbody, rfl⟩ | ⟨-, rfl⟩
  · have hentry := decNonintra_hasEntry hq
    rw [hbody] at hentry
    exact hentry
  · exact absurd hok (decNonintra_endsWith s c u hbody)
  · cases hstuck

end Sys2Proof.Machine
end

section
/-! SUPPORT. The inverse quantizer and the matrix commands (43_inverse_quant.md R222-R234): the odd-rounding correction
without its bit operation, what mismatch control does in each case, and the matrix that QM_LOAD reads. -/

namespace Sys2Proof.Machine

/-! ### The inverse quantizer -/

/-- Setting the low bit adds 1 to an even number and leaves an odd one (43 R223). -/
theorem or_one_eq (t : Nat) : t ||| 1 = if t % 2 = 0 then t + 1 else t := by
  have hhalf : (t ||| 1) / 2 = t / 2 := by rw [Nat.or_div_two]; simp
  have hodd : (t ||| 1) % 2 = 1 := by rw [Nat.or_mod_two_eq_one]; simp
  split <;> omega

theorem oddRounded_eq (t : Nat) : oddRounded t = if t = 0 then 0 else if t % 2 = 0 then (t : Int) - 1 else t := by
  rw [oddRounded, or_one_eq]
  split <;> split <;> omega

theorem clipS12_eq (v : Int) : clipS12 v = max (-2048) (min 2047 v) := by
  unfold clipS12
  omega

theorem State.weight_eq (s : State) (intra : Bool) :
    s.matrix (if intra then .intra else .inter) = if intra then s.qmIntra else s.qmInter := by
  cases intra <;> rfl

/-- Settles O37: the correction and the clip as the rule writes them, with P_INTRA_K = 0. -/
theorem inverseQuantizeFormula : Obligations.InverseQuantizeFormula := by
  rintro s intra p level t m rfl rfl
  rw [State.iq, State.weight_eq, inverseQuantize, clipS12_eq, oddRounded_eq]
  rfl

/-- Settles O38, by computing each row. -/
theorem inverseQuantizeWorkedValues : Obligations.InverseQuantizeWorkedValues := by
  unfold Obligations.InverseQuantizeWorkedValues
  decide

/-! ### Mismatch control -/

theorem State.mismatch_of_lastIs63 {s : State} (h : s.lastIs63 = true) : s.mismatch false = s.toggleLast := by
  simp [State.mismatch, h]

theorem State.mismatch_of_not_lastIs63 {s : State} (h : s.lastIs63 ≠ true) : s.mismatch false = s.append 63 1 := by
  simp [State.mismatch, h]

/-- Settles O39: the toggle when the last entry holds position 63, and an Append at position 63 otherwise. -/
theorem mismatchTogglesCoefficient63 : Obligations.MismatchTogglesCoefficient63 := by
  refine fun s => ⟨rfl, fun _ hpos hlast => ?_, fun hroom hlast => ?_⟩
  · rw [State.mismatch_of_lastIs63 (State.lastIs63_iff.2 ⟨hpos, hlast⟩), State.toggleLast, State.lastIndex, hlast]
  · have hnot : s.lastIs63 ≠ true := fun h => by
      obtain ⟨hpos, h63⟩ := State.lastIs63_iff.1 h
      exact hlast.elim (fun hzero => by omega) fun hne => hne h63
    have hcount : s.blkCount + 1 = BitVec.ofNat 7 (s.blkCount.toNat + 1) := by simp [BitVec.ofNat_add]
    rw [State.mismatch_of_not_lastIs63 hnot, State.append, hcount]
    rfl

/-! ### The matrix commands -/

/-- Settles O40: the two defaults are the matrices of reset and 16 everywhere (30 R112). -/
theorem qmDefaultLoadsTheDefaults : Obligations.QmDefaultLoadsTheDefaults :=
  fun s intra inter hsel => runCommand_ok (ifLegal_of hsel (fun s => .ok () (qmDefaults intra inter s)) s)

/-- The entries at the positions given get the bytes of `f`, one after the other (43 R232). -/
def withWeights (f : Nat → Byte) (q : Vector Byte 64) : List Nat → Vector Byte 64
  | [] => q
  | p :: ps => withWeights (fun i => f (i + 1)) (q.setIfInBounds p (f 0)) ps

theorem withWeights_cons (f : Nat → Byte) (q : Vector Byte 64) (p : Nat) (ps : List Nat) :
    withWeights f q (p :: ps) = withWeights (fun i => f (i + 1)) (q.setIfInBounds p (f 0)) ps := rfl

theorem getD_withWeights_of_not_mem {ps : List Nat} {p : Nat} (h : p ∉ ps) (f : Nat → Byte) (q : Vector Byte 64) :
    (withWeights f q ps).getD p 0 = q.getD p 0 := by
  induction ps generalizing f q with
  | nil => rfl
  | cons r ps ih =>
    obtain ⟨hne, hmem⟩ := List.ne_and_not_mem_of_not_mem_cons h
    rw [withWeights_cons, ih hmem, getD_setIfInBounds, if_neg fun heq => hne heq.1.symm]

/-- A position named once holds its own byte. -/
theorem getD_withWeights {ps : List Nat} (hnodup : ps.Nodup) (hlt : ∀ p ∈ ps, p < 64) {i : Nat} (hi : i < ps.length)
    (f : Nat → Byte) (q : Vector Byte 64) : (withWeights f q ps).getD (ps.getD i 0) 0 = f i := by
  induction ps generalizing f q i with
  | nil => exact absurd hi (Nat.not_lt_zero i)
  | cons p ps ih =>
    obtain ⟨hp, hnodup⟩ := List.nodup_cons.1 hnodup
    cases i with
    | zero =>
      rw [withWeights_cons, List.getD_cons_zero, getD_withWeights_of_not_mem hp, getD_setIfInBounds,
        if_pos ⟨rfl, hlt p List.mem_cons_self⟩]
    | succ i =>
      rw [withWeights_cons, List.getD_cons_succ]
      exact ih hnodup (fun r hr => hlt r (List.mem_cons_of_mem p hr)) (Nat.lt_of_succ_lt_succ hi) _ _

/-- Byte i of the stream from the cursor on. -/
def State.streamByte (s : State) (i : Nat) : Byte := BitVec.ofNat 8 ((s.consume (8 * i)).streamNat 8)

theorem State.streamByte_zero (s : State) : s.streamByte 0 = BitVec.ofNat 8 (s.streamNat 8) := by
  have hoff : (s.consume (8 * 0)).bsOffset.toNat = s.bsOffset.toNat := Nat.mod_eq_of_lt s.bsOffset.isLt
  rw [State.streamByte, State.streamNat, hoff]
  rfl

theorem State.streamByte_consume (s : State) (i : Nat) : (s.consume 8).streamByte i = s.streamByte (i + 1) := by
  rw [State.streamByte, State.consume_consume, Nat.add_comm, ← Nat.mul_succ]
  rfl

theorem State.streamByte_setMatrix (s : State) (m : WeightSel) (q : Vector Byte 64) :
    (s.setMatrix m q).streamByte = s.streamByte := by
  cases m <;> rfl

theorem State.setMatrix_consume_setMatrix (s : State) (m : WeightSel) (q r : Vector Byte 64) (n : Nat) :
    ((s.setMatrix m q).consume n).setMatrix m r = (s.consume n).setMatrix m r := by
  cases m <;> rfl

theorem SameBuffer.setMatrix (s : State) (m : WeightSel) (q : Vector Byte 64) : SameBuffer s (s.setMatrix m q) :=
  ⟨s.setMatrix_bsBase m q, s.setMatrix_bsLen m q, s.setMatrix_mem m q, s.setMatrix_earlier m q⟩

theorem loadWeights_cons_of_readable (m : WeightSel) (p : Nat) (ps : List Nat) {s : State} (hq : s.quiet)
    (hr : s.readable) : loadWeights m (p :: ps) s =
      loadWeights m ps ((s.consume 8).setMatrix m ((s.matrix m).setIfInBounds p (s.streamByte 0))) := by
  rw [loadWeights, State.get_of_readable hq hr, State.streamByte_zero]
  cases m <;> rfl

/-- Loading weights reads one byte of the stream for each position (43 R232). The list is not empty: a Consume of no bit sets
OVERRUN past MAX, and loading nothing does not. -/
theorem loadWeights_of_readable (m : WeightSel) (p : Nat) (ps : List Nat) {s : State} (hq : s.quiet) (hr : s.readable) :
    loadWeights m (p :: ps) s =
      .ok () ((s.consume (8 * (ps.length + 1))).setMatrix m (withWeights s.streamByte (s.matrix m) (p :: ps))) := by
  induction ps generalizing p s with
  | nil => exact loadWeights_cons_of_readable m p [] hq hr
  | cons r ps ih =>
    have hbuf := (SameBuffer.consume s 8).trans (.setMatrix _ m ((s.matrix m).setIfInBounds p (s.streamByte 0)))
    have hbytes : (s.consume 8).streamByte = fun i => s.streamByte (i + 1) := funext s.streamByte_consume
    have hcursor : 8 + 8 * (ps.length + 1) = 8 * ((r :: ps).length + 1) := by rw [List.length_cons]; omega
    rw [loadWeights_cons_of_readable m p _ hq hr, ih r (hbuf.quiet hq) (hbuf.readable hr), State.setMatrix_consume_setMatrix,
      State.consume_consume, hcursor, State.streamByte_setMatrix, State.matrix_setMatrix_same, hbytes,
      withWeights_cons s.streamByte]

/-- Settles O41: ZIGZAG names each of the 64 positions once (30 R110), so that the bytes stand where they were put. -/
theorem qmLoadReadsTheMatrixInZigzagOrder : Obligations.QmLoadReadsTheMatrixInZigzagOrder := by
  intro s m hq hr
  refine ⟨withWeights s.streamByte (s.matrix m) zigzag, runCommand_ok (loadWeights_of_readable m 0 zigzag.tail hq hr),
    fun i hi => ?_⟩
  exact getD_withWeights (ps := zigzag) (by decide) (by decide) hi _ _

end Sys2Proof.Machine
end

section
/-! SUPPORT. The parity of a block (43_inverse_quant.md R227-R229): the accumulator of a DEC command follows the sum of the
values in LIST, and mismatch control makes that sum odd. -/

namespace Sys2Proof.Machine

/-! ### The low bit -/

theorem lowBit_add (v w : Int) : lowBit (v + w) = (lowBit v ^^ lowBit w) := by
  unfold lowBit
  rcases Int.emod_two_eq_zero_or_one v with hv | hv <;> rcases Int.emod_two_eq_zero_or_one w with hw | hw <;>
    simp [Int.add_emod, hv, hw]

/-- The low bit of a VALUE as a number is its bit 0. -/
theorem lowBit_toInt (x : BitVec 16) : lowBit x.toInt = x.getLsbD 0 := by
  rw [lowBit, BitVec.getLsbD, Nat.testBit_zero, BitVec.toInt_eq_toNat_cond]
  split <;> exact decide_eq_decide.2 (by omega)

theorem lowBit_toInt_xor_one (x : BitVec 16) : lowBit (x ^^^ 1).toInt = !lowBit x.toInt := by
  rw [lowBit_toInt, lowBit_toInt]
  simp

/-! ### The sum of the values in LIST -/

/-- The sum of the values of the first n entries of LIST. -/
def State.valueSum (s : State) (n : Nat) : Int := ((List.range n).map fun j => (s.entry j).value.toInt).sum

theorem State.valueSum_succ (s : State) (n : Nat) : s.valueSum (n + 1) = s.valueSum n + (s.entry n).value.toInt := by
  simp [State.valueSum, List.range_succ]

theorem State.valueSum_congr {s t : State} {n : Nat} (h : ∀ j, j < n → t.entry j = s.entry j) :
    t.valueSum n = s.valueSum n := by
  unfold State.valueSum
  exact congrArg List.sum (List.map_congr_left fun j hj => by rw [h j (List.mem_range.1 hj)])

/-- The parity of the block: the low bit of the sum of the values below BLK_COUNT. -/
def State.sumIsOdd (s : State) : Bool := lowBit (s.valueSum s.blkCount.toNat)

theorem SameOutput.sumIsOdd {s t : State} (h : SameOutput s t) : t.sumIsOdd = s.sumIsOdd := by
  rw [State.sumIsOdd, h.blkCount, State.valueSum_congr fun j _ => h.entry j]
  rfl

theorem State.sumIsOdd_append {s : State} {p : Nat} {v : Int} (hroom : s.blkCount.toNat < 64) (hv : Is12Bit v) :
    (s.append p v).sumIsOdd = (s.sumIsOdd ^^ lowBit v) := by
  have hold : (s.append p v).valueSum s.blkCount.toNat = s.valueSum s.blkCount.toNat :=
    State.valueSum_congr fun j hj => State.entry_append_of_ne (Nat.ne_of_lt hj)
  rw [State.sumIsOdd, State.append_blkCount_toNat hroom, State.valueSum_succ, hold, State.entry_append_same hroom,
    toInt_ofInt_of_is12Bit hv, lowBit_add]
  rfl

theorem State.sumIsOdd_toggleLast {s : State} (hpos : 0 < s.blkCount.toNat) (hcount : s.blkCount.toNat ≤ 64) :
    s.toggleLast.sumIsOdd = !s.sumIsOdd := by
  have hlast : s.blkCount.toNat = s.lastIndex + 1 := by unfold State.lastIndex; omega
  have hold : s.toggleLast.valueSum s.lastIndex = s.valueSum s.lastIndex :=
    State.valueSum_congr fun j hj => State.entry_toggleLast_of_ne (Nat.ne_of_lt hj)
  rw [State.sumIsOdd, State.sumIsOdd, State.toggleLast_blkCount, hlast, State.valueSum_succ, State.valueSum_succ, hold,
    State.entry_toggleLast_same (by omega), lowBit_add, lowBit_add, lowBit_toInt_xor_one, Bool.xor_not]

/-! ### The parity accumulator -/

/-- A block under way whose accumulator is the parity of its values (43 R227). -/
structure TracksParity (s : State) (g : Progress) (t : State) : Prop extends InScanOrder s g.n t where
  par : g.par = t.sumIsOdd

theorem TracksParity.of_moves {s t u : State} {g : Progress} (h : TracksParity s g t) (hmoves : Moves t u) :
    TracksParity s g u where
  toInScanOrder := (inScanOrder_loopInvariant s).moves h.toInScanOrder hmoves
  par := h.par.trans hmoves.sameOutput.sumIsOdd.symm

/-- An Append puts the low bit of its value into both. -/
theorem TracksParity.append {s t : State} {g : Progress} {m : Nat} {v : Int} (h : TracksParity s g t) (hnm : g.n ≤ m)
    (hm : m ≤ 63) (hv : Is12Bit v) :
    TracksParity s ⟨m + 1, g.par ^^ lowBit v⟩ (t.append (t.scanTable.getD m 0) v) where
  toInScanOrder := (inScanOrder_loopInvariant s).append h.toInScanOrder hnm hm hv
  par := by
    have := h.count
    rw [State.sumIsOdd_append (by omega) hv, h.par]

theorem TracksParity.place {s t : State} {g : Progress} (h : TracksParity s g t) (intra : Bool) (run : Nat) (level : Int) :
    (place intra run level g t).Meets (TracksParity s) fun _ => True := by
  by_cases hn : g.n + run ≤ 63
  · rw [place_of_le hn]
    exact h.append (Nat.le_add_right _ _) hn (t.is12Bit_iq level _ intra)
  · rw [place_of_lt (Nat.lt_of_not_le hn)]
    trivial

theorem TracksParity.firstNonIntra {s t : State} {g : Progress} (h : TracksParity s g t) :
    (firstNonIntra g t).Meets (TracksParity s) fun _ => True := by
  unfold Machine.firstNonIntra
  split
  · trivial
  · split
    · have hget : ((t.consume 1).get 1).Meets (fun _ => TracksParity s g) fun _ => True :=
        .intro (fun _ _ hok => h.of_moves ((Moves.consume t 1).trans (.of_get hok))) fun _ _ _ => trivial
      exact hget.andThen fun sign u hu => hu.place false 0 _
    · exact h

theorem TracksParity.acLoop {s t : State} {g : Progress} (h : TracksParity s g t) (table : AcTable) (intra : Bool)
    (fuel : Nat) : (acLoop table intra fuel g t).Meets (TracksParity s) fun _ => True := by
  induction fuel generalizing g t with
  | zero => trivial
  | succ fuel ih =>
    have hsym : (acSymbol table t).Meets (fun _ => TracksParity s g) fun _ => True :=
      .intro (fun _ _ hok => h.of_moves (.of_acSymbol hok)) fun _ _ _ => trivial
    refine hsym.andThen fun sym u hu => ?_
    rcases sym with _ | _ | ⟨run, level⟩
    · trivial
    · exact hu
    · exact (hu.place intra run level).andThen fun g w hw => ih hw

/-! ### The block's end -/

/-- Mismatch control leaves an odd sum: the toggle turns the low bit of the last value over, and the entry appended is 1
(43 R229). -/
theorem TracksParity.mismatch {s t : State} {g : Progress} (h : TracksParity s g t) :
    (t.mismatch g.par).sumIsOdd = true := by
  rw [h.par]
  cases hodd : t.sumIsOdd with
  | true => exact hodd
  | false =>
    have hcount := h.count
    have hindex := h.index
    by_cases h63 : t.lastIs63 = true
    · rw [State.mismatch_of_lastIs63 h63, State.sumIsOdd_toggleLast (State.lastIs63_iff.1 h63).1 (by omega), hodd]
      rfl
    · have hn : g.n ≠ 64 := fun hn => h63 (h.full hn)
      rw [State.mismatch_of_not_lastIs63 h63, State.sumIsOdd_append (by omega) (by unfold Is12Bit; decide), hodd]
      rfl

theorem TracksParity.finishBlock {s t : State} {g : Progress} (hmpeg2 : s.cfg.mpeg2 = true) (h : TracksParity s g t) :
    (finishBlock g t).Meets (fun _ u => u.sumIsOdd = true) fun _ => True := by
  have hmode : t.cfg.mpeg2 = true := by rw [h.cfg, hmpeg2]
  rw [Machine.finishBlock, if_pos hmode]
  exact h.mismatch

theorem TracksParity.of_empty {s t : State} (h : InScanOrder s 0 t) : TracksParity s ⟨0, false⟩ t where
  toInScanOrder := h
  par := by
    rw [State.sumIsOdd, Nat.le_zero.1 h.count]
    rfl

theorem decNonintra_sumIsOdd {s : State} (hmpeg2 : s.cfg.mpeg2 = true) :
    (decNonintra s).Meets (fun _ u => u.sumIsOdd = true) fun _ => True :=
  (TracksParity.of_empty (t := s.clearOutput) (.of_empty (.refl _) rfl)).firstNonIntra.andThen fun _ _ ht =>
    (ht.acLoop acTableZero false maxSymbols).andThen fun _ _ hu => hu.finishBlock hmpeg2

theorem State.scanTable_zero (s : State) : s.scanTable.getD 0 0 = 0 := by
  unfold State.scanTable
  split <;> rfl

/-- The DC coefficient is decoded with the block output still empty (42 R190). -/
theorem intraDc_inScanOrder (cc : Component) (s : State) :
    (intraDc cc s.clearOutput).Meets (fun dc t => Is12Bit dc ∧ InScanOrder s 0 t) fun _ => True := by
  have houtput := intraDc_leaves cc s.clearOutput
  refine .intro (fun dc t hok => ?_) fun _ _ _ => trivial
  rw [hok] at houtput
  exact ⟨intraDc_is12Bit hok, .of_empty houtput ((intraDc_cfg hok).trans s.clearOutput_cfg)⟩

theorem decIntra_sumIsOdd {s : State} (hmpeg2 : s.cfg.mpeg2 = true) (table : AcTable) (cc : Component) :
    (decIntra table cc s).Meets (fun _ u => u.sumIsOdd = true) fun _ => True := by
  refine (intraDc_inScanOrder cc s).andThen fun dc t ⟨hv, ht⟩ => ?_
  have happend := (TracksParity.of_empty ht).append (le_refl 0) (by decide) hv
  rw [State.scanTable_zero] at happend
  exact (happend.acLoop table true maxSymbols).andThen fun _ _ hu => hu.finishBlock hmpeg2

/-! ### A DEC command that completes with OK -/

theorem dcDiff_endsWith (cc : Component) (s : State) : (dcDiff cc s).EndsWith (· ≠ .ok) := by
  refine Res.EndsWith.andThen (fun c t h => absurd h (s.vlc_ne_error t _ c)) fun size t => ?_
  rcases size with _ | _ | size
  · exact .error (by decide) t
  · exact .ok 0 t
  · exact (t.get_endsWith _).andThen fun bits u => .ok _ u

/-- A DEC_INTRA body that ends at an error does not end with OK (42 R190). -/
theorem decIntra_endsWith (table : AcTable) (cc : Component) (s : State) : (decIntra table cc s).EndsWith (· ≠ .ok) :=
  ((dcDiff_endsWith cc _).andThen fun _ _ => .ok _ _).andThen fun _ _ => (Res.EndsWith.ok _ _).andThen fun g u =>
    (acLoop_endsWith table true maxSymbols g u).andThen fun _ _ => .ok () _

/-- A command whose errors carry another code completes with OK only when its body goes on to its end. -/
theorem runCommand_meets_ok {body : State → Res Unit} {s t : State} {P : State → Prop} {E : State → Prop}
    (hrun : runCommand body s = .next t) (hstuck : t.stuck = false) (hcode : t.errCode = .ok)
    (hends : (body s).EndsWith (· ≠ .ok)) (h : (body s).Meets (fun _ => P) E) : ∃ u, P u ∧ t = u.complete .ok := by
  rcases runCommand_cases.1 hrun with ⟨u, hbody, rfl⟩ | ⟨c, u, hbody, rfl⟩ | ⟨-, rfl⟩
  · rw [hbody] at h
    exact ⟨u, h, rfl⟩
  · exact absurd hcode (hends c u hbody)
  · cases hstuck

/-- Settles O34: both bodies that go on to their end leave an odd sum, and the completion keeps it. -/
theorem mpeg2BlockSumIsOdd : Obligations.Mpeg2BlockSumIsOdd := by
  intro i s t hi hexec hstuck hcode hmpeg2
  have hodd : ∃ u : State, u.sumIsOdd = true ∧ t = u.complete .ok := by
    rcases hi with rfl | ⟨cc, rfl⟩
    · exact runCommand_meets_ok hexec hstuck hcode (decNonintra_endsWith s) (decNonintra_sumIsOdd hmpeg2)
    · cases htable : s.intraTable with
      | none => exact nomatch (exec_decIntra_fault_iff.2 htable).symm.trans hexec
      | some table =>
        rw [exec_decIntra htable] at hexec
        exact runCommand_meets_ok hexec hstuck hcode (decIntra_endsWith table cc s) (decIntra_sumIsOdd hmpeg2 table cc)
  obtain ⟨u, hu, rfl⟩ := hodd
  exact of_decide_eq_true hu

end Sys2Proof.Machine
end

section
/-! SUPPORT. The slice header and the DC-predictor reset (44_slice_header.md R250-R257) on a buffer that can be read and does
not change: where the extra information ends, and the exact next state of SLICE_HDR, with an error and with OK, and of DC_RESET. -/

namespace Sys2Proof.Machine

/-! ### The extra information -/

/-- The cursor stands at the continuation bits of `k` extra-information bytes: 1 before each of them and 0 after the last
(44 R250 step 5). -/
def State.HasExtraBytes (s : State) (k : Nat) : Prop :=
  (∀ j, j < k → (s.consume (9 * j)).streamNat 1 = 1) ∧ (s.consume (9 * k)).streamNat 1 = 0

theorem State.streamNat_one (s : State) : s.streamNat 1 = (s.streamBit s.off).toNat := by
  simp [State.streamNat, bitsValue, State.off]

theorem State.streamNat_one_of_ne_zero {s : State} (h : s.streamNat 1 ≠ 0) : s.streamNat 1 = 1 := by
  have hlt : s.streamNat 1 < 2 ^ 1 := bitsValue_lt _ _ 1
  omega

/-- At and past MAX the next bit is 0 (20 R63). -/
theorem State.streamNat_one_of_maxBit_le {s : State} (h : s.maxBit ≤ s.off) : s.streamNat 1 = 0 := by
  have hbit : s.streamBit s.off = false := by
    rw [State.streamBit, decide_eq_false (show ¬s.off < 8 * s.bsLen.toNat from Nat.not_lt.2 h), Bool.false_and]
  rw [State.streamNat_one, hbit, Bool.toNat_false]

/-- Steps of nine bits take the cursor to MAX or past it. It does not wrap on the way, since MAX lies far below 2^32. -/
theorem State.exists_maxBit_le_consume_off (s : State) :
    ∃ k, k ≤ s.maxBit / 9 + 1 ∧ s.maxBit ≤ (s.consume (9 * k)).off := by
  have hmax : s.maxBit + 8 ≤ 2 ^ 31 := by
    have := s.bsLen.isLt
    unfold State.maxBit
    omega
  by_cases hpast : s.maxBit ≤ s.off
  · exact ⟨0, Nat.zero_le _, hpast.trans_eq (Nat.mod_eq_of_lt s.bsOffset.isLt ▸ (s.consume_off 0)).symm⟩
  · refine ⟨s.maxBit / 9 + 1, le_refl _, ?_⟩
    rw [State.consume_off]
    omega

/-- The extra information ends at the first continuation bit that is 0, at the latest where the cursor has reached MAX
(44 R257). -/
theorem State.exists_hasExtraBytes (s : State) : ∃ k, k ≤ s.maxBit / 9 + 1 ∧ s.HasExtraBytes k := by
  obtain ⟨m, hm, hpast⟩ := s.exists_maxBit_le_consume_off
  have hzero : (s.consume (9 * m)).streamNat 1 = 0 := State.streamNat_one_of_maxBit_le hpast
  have hend : ∃ k, (s.consume (9 * k)).streamNat 1 = 0 := ⟨m, hzero⟩
  exact ⟨Nat.find hend, (Nat.find_min' hend hzero).trans hm,
    fun j hj => State.streamNat_one_of_ne_zero (Nat.find_min hend hj), Nat.find_spec hend⟩

/-- Settles O22: the first continuation bit 0 is met at the latest at MAX. -/
theorem extraInformationEnds : Obligations.ExtraInformationEnds := State.exists_hasExtraBytes

theorem State.HasExtraBytes.le_bound {s : State} {k : Nat} (h : s.HasExtraBytes k) : k ≤ s.maxBit / 9 + 1 := by
  obtain ⟨m, hm, -, hzero⟩ := s.exists_hasExtraBytes
  by_contra hk
  have hone := h.1 m (by omega)
  omega

theorem State.streamNat_consume_zero (s : State) (n : Nat) : (s.consume 0).streamNat n = s.streamNat n :=
  congrArg (bitsValue s.streamBit · n) (Nat.mod_eq_of_lt s.bsOffset.isLt)

theorem State.hasExtraBytes_zero_iff {s : State} : s.HasExtraBytes 0 ↔ s.streamNat 1 = 0 := by
  simp [State.HasExtraBytes, State.streamNat_consume_zero]

/-- One more byte: a continuation bit 1, and the rest nine bits on. -/
theorem State.HasExtraBytes.succ {s : State} {k : Nat} (h : s.HasExtraBytes (k + 1)) :
    s.streamNat 1 = 1 ∧ (s.consume 9).HasExtraBytes k := by
  obtain ⟨hones, hzero⟩ := h
  have hnext (j : Nat) : (s.consume 9).consume (9 * j) = s.consume (9 * (j + 1)) := by
    rw [State.consume_consume, Nat.add_comm, ← Nat.mul_succ]
  refine ⟨(s.streamNat_consume_zero 1).symm.trans (hones 0 k.succ_pos), fun j hj => ?_, ?_⟩
  · rw [hnext]
    exact hones (j + 1) (Nat.succ_lt_succ hj)
  · rwa [hnext]

/-- The loop reads the k bytes and the continuation bit 0 after them (44 R250 step 5). -/
theorem extraLoop_of_hasExtraBytes {s : State} {fuel k : Nat} (hq : s.quiet) (hr : s.readable) (hk : k ≤ fuel)
    (h : s.HasExtraBytes k) : extraLoop fuel s = .ok () (s.consume (9 * k + 1)) := by
  induction k generalizing fuel s with
  | zero =>
    have hbit := State.hasExtraBytes_zero_iff.1 h
    cases fuel <;> simp [extraLoop, State.get_of_readable hq hr, hbit]
  | succ k ih =>
    obtain ⟨fuel, rfl⟩ := Nat.exists_eq_succ_of_ne_zero (Nat.ne_zero_of_lt hk)
    obtain ⟨hbit, hrest⟩ := h.succ
    have hbuf := SameBuffer.consume s 9
    have hcursor : 9 + (9 * k + 1) = 9 * (k + 1) + 1 := by omega
    rw [extraLoop, State.get_of_readable hq hr, Res.andThen_ok, if_pos hbit, State.consume_consume,
      ih (hbuf.quiet hq) (hbuf.readable hr) (Nat.le_of_succ_le_succ hk) hrest, State.consume_consume, hcursor]

theorem extraInformation_of_hasExtraBytes {s : State} {k : Nat} (hq : s.quiet) (hr : s.readable) (h : s.HasExtraBytes k) :
    extraInformation s = .ok () (s.consume (9 * k + 1)) :=
  extraLoop_of_hasExtraBytes hq hr h.le_bound h

/-! ### SLICE_HDR -/

/-- The vertical position that the slice header at the cursor gives (44 R250 step 1). -/
def State.streamPosition (s : State) : Nat :=
  (s.consume 24).streamNat 8 + (if 2800 < s.vertSize.toNat then (s.consume 32).streamNat 3 * 128 else 0)

/-- The start code's first 24 bits, the position and its extension, when there is one, are consumed (44 R250 step 1). -/
theorem slicePosition_of_readable {s : State} (hq : s.quiet) (hr : s.readable) :
    slicePosition s = .ok s.streamPosition (s.consume (if 2800 < s.vertSize.toNat then 35 else 32)) := by
  rw [slicePosition, State.get_consume_of_readable hq hr, Res.andThen_ok, State.streamPosition, State.consume_vertSize]
  split
  · rw [State.get_consume_of_readable hq hr]
    rfl
  · rfl

/-- Settles O20: the test of 44 R250 step 2 fails, with the position read and RESULT set. -/
theorem sliceHdrRejectsAnInvalidPosition : Obligations.SliceHdrRejectsAnInvalidPosition := by
  rintro s pos hq hr (rfl : pos = s.streamPosition) hinvalid
  refine runCommand_error (body := sliceHeader) ?_
  rw [sliceHeader, slicePosition_of_readable hq hr, Res.andThen_ok]
  exact if_neg fun ⟨hpos, hrows⟩ => hinvalid.elim hpos.ne' (Nat.not_lt.2 hrows)

/-- MB_POS at a slice of a row that MB_Y can hold, as one update (44 R250 step 3). -/
theorem State.enterRow_of_lt {row : Nat} (hrow : row < 2 ^ 16) (s : State) :
    s.enterRow row = { s with mbX := if s.mbY.toNat = row then s.mbX else 0, mbY := BitVec.ofNat 16 row } := by
  have hsame : s.mbY = BitVec.ofNat 16 row ↔ s.mbY.toNat = row := by
    rw [← BitVec.toNat_inj, BitVec.toNat_ofNat, Nat.mod_eq_of_lt hrow]
  unfold State.enterRow
  split
  next h => rw [if_pos (hsame.1 h), ← h]
  next h => rw [if_neg (mt hsame.2 h)]

theorem SameStream.sameBuffer {s t : State} (h : SameStream s t) : SameBuffer s t :=
  ⟨h.base.symm, h.len.symm, h.mem.symm, h.earlier.symm⟩

theorem SameStream.streamNat {s t : State} (h : SameStream s t) (n : Nat) : t.streamNat n = s.streamNat n := by
  rw [State.streamNat, h.sameBuffer.streamBit, ← h.off]
  rfl

theorem SameReader.refl (s : State) : SameReader s s := ⟨⟨rfl, rfl, rfl, rfl, rfl, rfl⟩, rfl, rfl⟩

section
variable {s t : State} (h : SameReader s t)
include h

theorem SameReader.setResult (v : Nat) : SameReader s (t.setResult v) :=
  ⟨⟨h.base, h.len, h.off, h.mem, h.earlier, h.draws⟩, h.overrun, h.cfg⟩

theorem SameReader.setQscale (v : Nat) : SameReader s (t.setQscale v) :=
  ⟨⟨h.base, h.len, h.off, h.mem, h.earlier, h.draws⟩, h.overrun, h.cfg⟩

theorem SameReader.enterRow (row : Nat) : SameReader s (t.enterRow row) := by
  unfold State.enterRow
  split
  · exact h
  · exact ⟨⟨h.base, h.len, h.off, h.mem, h.earlier, h.draws⟩, h.overrun, h.cfg⟩

theorem SameReader.get_of_readable (hq : s.quiet) (hr : s.readable) (n : Nat) :
    t.get n = .ok (s.streamNat n) (t.consume n) := by
  have hbuf := h.sameBuffer
  rw [State.get_of_readable (hbuf.quiet hq) (hbuf.readable hr), h.streamNat]

theorem SameReader.hasExtraBytes {k : Nat} (hk : s.HasExtraBytes k) : t.HasExtraBytes k :=
  ⟨fun j hj => ((h.consume _).streamNat 1).trans (hk.1 j hj), ((h.consume _).streamNat 1).trans hk.2⟩

theorem SameReader.extraInformation (hq : s.quiet) (hr : s.readable) {k : Nat} (hk : s.HasExtraBytes k) :
    extraInformation t = .ok () (t.consume (9 * k + 1)) :=
  extraInformation_of_hasExtraBytes (h.sameBuffer.quiet hq) (h.sameBuffer.readable hr) (h.hasExtraBytes hk)

end

/-- Settles O21: the writes of RESULT, MB_POS and QSCALE leave the stream alone, so the scale code and the extra information are
read as from a state that has only its cursor moved. -/
theorem sliceHdrLoadsTheSlice : Obligations.SliceHdrLoadsTheSlice := by
  rintro s u w pos q k hq hr (rfl : pos = s.streamPosition) hpos hrows hu rfl rfl hones hzero
  have hrow : s.streamPosition - 1 < 2 ^ 16 := by
    have := s.mbRows.isLt
    omega
  have hbuf : SameBuffer s u := hu ▸ SameBuffer.consume s _
  have hbuf5 := hbuf.trans (.consume u 5)
  have hread := ((SameReader.refl u).setResult s.streamPosition).enterRow (s.streamPosition - 1)
  have hread5 (v : Nat) := (hread.consume 5).setQscale v
  refine runCommand_ok (body := sliceHeader) ?_
  rw [sliceHeader, slicePosition_of_readable hq hr, ← hu, Res.andThen_ok]
  dsimp only
  rw [if_pos ⟨hpos, hu ▸ hrows⟩, hread.get_of_readable (hbuf.quiet hq) (hbuf.readable hr), Res.andThen_ok,
    (hread5 _).extraInformation (hbuf5.quiet hq) (hbuf5.readable hr) ⟨hones, hzero⟩, Res.andThen_ok,
    State.enterRow_of_lt hrow, hu]
  rfl

/-! ### DC_RESET -/

/-- The slice-start value of each precision, as R251 lists them. -/
theorem dcStart_eq (precision : BitVec 2) : [128, 256, 512, 1024].getD precision.toNat 0 = 128 * 2 ^ precision.toNat := by
  revert precision
  decide

/-- Settles O23: the value listed is 128 << INTRA_DC_PRECISION. -/
theorem dcResetRestoresThePredictors : Obligations.DcResetRestoresThePredictors := by
  intro s v hv
  obtain rfl : v = BitVec.ofNat 16 (128 * 2 ^ s.cfg.intraDcPrecision.toNat) := by
    rw [← dcStart_eq, ← hv, BitVec.ofNat_toNat, BitVec.setWidth_eq]
  exact runCommand_ok (body := fun s => .ok () s.dcReset) rfl

end Sys2Proof.Machine
end

section
/-! SUPPORT. How a command word ends (60_exceptions.md R270-R276): an illegal word completes at once, and a command runs a body
to its end, so that only a DEC_INTRA without its table (42_vld.md R178) can stop the machine. -/

namespace Sys2Proof.Machine

/-! ### An illegal word -/

/-- The block completes an illegal word with ILLEGAL_COMMAND (60 R272). -/
theorem blockMove_of_illegal {s : State} {w : Word} {r : DecodeError} (hcmd : s.command = some w) (hstuck : s.stuck = false)
    (hdecode : decode w = .error r) : blockMove s = .next (s.complete .illegalCommand) := by
  simp only [blockMove, hcmd, hstuck, runWord, hdecode, Bool.false_eq_true, if_false]

/-- A completion shows in STATUS alone (70 R310). -/
theorem State.regValue_complete (s : State) (c : ResultCode) {q : Reg} (hq : q ≠ .status) :
    (s.complete c).regValue q = s.regValue q := by
  cases q with
  | status => exact absurd rfl hq
  | _ => rfl

/-- Settles O5: the step is the completion, which shows in STATUS alone. -/
theorem illegalWordOnlyCompletes : Obligations.IllegalWordOnlyCompletes := by
  intro s w r hblock hcmd hstuck hdecode
  have hstep : step s = .next (s.complete .illegalCommand) :=
    (step_of_block hblock).trans (blockMove_of_illegal hcmd hstuck hdecode)
  exact ⟨_, hstep, rfl, rfl, rfl, fun _ hq => s.regValue_complete _ hq, rfl, rfl, rfl, rfl⟩

/-! ### Commands that stop -/

/-- A command runs a body to its end, or it is a DEC_INTRA without its table (42 R178). -/
theorem exec_runs_or_lacks_table (i : Instr) (s : State) :
    (∃ body, exec i s = runCommand body s) ∨ ∃ cc, i = .decIntra cc ∧ s.intraTable = none := by
  cases i with
  | decIntra cc =>
    cases htable : s.intraTable with
    | none => exact .inr ⟨cc, rfl, rfl⟩
    | some table => exact .inl ⟨decIntra table cc, exec_decIntra htable⟩
  | nop => exact .inl ⟨fun s => .ok () s, rfl⟩
  | align => exact .inl ⟨fun s => .ok () s.align, rfl⟩
  | dcReset => exact .inl ⟨fun s => .ok () s.dcReset, rfl⟩
  | _ => exact .inl ⟨_, rfl⟩

/-- Settles O44: a body's end is a next state, and without its table a DEC_INTRA faults. -/
theorem onlyDecIntraCanFault : Obligations.OnlyDecIntraCanFault := by
  intro i s
  rcases exec_runs_or_lacks_table i s with ⟨body, hrun⟩ | ⟨cc, rfl, hnone⟩
  · exact .inl (hrun ▸ runCommand_next body s)
  · exact .inr ⟨exec_decIntra_fault_iff.2 hnone, cc, rfl⟩

end Sys2Proof.Machine
end

section
/-! SUPPORT. How a command starts, runs and ends (70_reset_and_hazards.md R310-R312), and what the host's writes and reads do while
it is in progress (R315, R316). -/

namespace Sys2Proof.Machine

/-! ### Start, run and completion -/

/-- Settles O3: a completion shows in STATUS alone, and of its flags only the two it writes change. -/
theorem completionWritesStatusOnly : Obligations.CompletionWritesStatusOnly := by
  intro s code
  exact ⟨rfl, rfl, rfl, fun _ hr => s.regValue_complete code hr, rfl, rfl, rfl, rfl⟩

/-- The block runs the command that the word in progress decodes to (70 R312). -/
theorem blockMove_of_legal {s : State} {w : Word} {i : Instr} (hcmd : s.command = some w) (hstuck : s.stuck = false)
    (hdecode : decode w = .ok i) : blockMove s = exec i s := by
  simp only [blockMove, hcmd, hstuck, runWord, hdecode, Bool.false_eq_true, if_false]

/-- Settles O4: the step is the block's move. -/
theorem stepRunsTheDecodedCommand : Obligations.StepRunsTheDecodedCommand := by
  intro s w i hblock hcmd hstuck hdecode
  exact (step_of_block hblock).trans (blockMove_of_legal hcmd hstuck hdecode)

/-- The start of a command shows in STATUS alone (70 R311). -/
theorem State.regValue_startCommand (s : State) (w : Word) {r : Reg} (hr : r ≠ .status) :
    (s.startCommand w).regValue r = s.regValue r := by
  cases r with
  | status => exact absurd rfl hr
  | _ => rfl

/-- Settles O48: while idle a write of CMD is the start of the command. -/
theorem cmdWriteStartsTheCommand : Obligations.CmdWriteStartsTheCommand := by
  intro s w rest hturn hagenda hidle
  have hstep : step s = .next (State.startCommand { s with agenda := rest } w) := by
    rw [step_write hturn hagenda (by decide), State.hostWrite_of_regAt (r := .cmd) (by decide)]
    exact congrArg Host.Outcome.next (State.writeReg_of_idle (s := { s with agenda := rest }) hidle .cmd w)
  refine ⟨_, hstep, rfl, rfl, rfl, rfl, rfl, rfl, rfl, fun r hr => ?_, rfl⟩
  rw [State.regValue_startCommand _ _ hr, State.regValue_agenda]

/-! ### Writes while a command runs -/

theorem State.writeReg_of_busy {s : State} (h : s.busy = true) (r : Reg) (v : Word) : s.writeReg r v = s.writeBusy r v :=
  if_pos h

/-- Settles O49: each of the registers listed drops the write. -/
theorem busyWritesAreDropped : Obligations.BusyWritesAreDropped := by
  intro s offset v rest r hturn hagenda halign hbusy hreg hdropped
  rw [step_write hturn hagenda halign, State.hostWrite_of_regAt hreg,
    State.writeReg_of_busy (s := { s with agenda := rest }) hbusy]
  rcases hdropped with hlisted | ⟨m, j, rfl⟩
  · cases r with
    | id | ctrl | status | result | bsMax | blkCount | blkMask | list _ | matrix _ _ => simp at hlisted
    | _ => rfl
  · rfl

/-! ### Reads while a command runs -/

/-- A read returns the register's value outside the free bits (70 R316). -/
theorem State.readReg_and_not_freeBits (s : State) (r : Reg) :
    s.readReg r &&& ~~~s.freeBits r = s.regValue r &&& ~~~s.freeBits r := by
  unfold State.readReg
  split
  · rfl
  · ext k
    simp only [BitVec.getElem_and, BitVec.getElem_or, BitVec.getElem_not]
    cases (s.freeBits r)[k] <;> simp

/-- Words that agree outside a mask agree in bits that lie outside it. -/
theorem and_eq_of_and_not_eq {x y mask bits : Word} (h : x &&& ~~~mask = y &&& ~~~mask) (hbits : ~~~mask &&& bits = bits) :
    x &&& bits = y &&& bits := by
  calc x &&& bits = x &&& ~~~mask &&& bits := by rw [BitVec.and_assoc, hbits]
    _ = y &&& ~~~mask &&& bits := by rw [h]
    _ = y &&& bits := by rw [BitVec.and_assoc, hbits]

/-- The free bits are those that the command in progress may write. -/
theorem State.freeBits_of_legal {s : State} {w : Word} {i : Instr} (hcmd : s.command = some w) (hdecode : decode w = .ok i)
    (r : Reg) : s.freeBits r = (writesOf i).mask r := by
  simp only [State.freeBits, hcmd, writesOfWord, hdecode]

/-- An illegal word in progress may write what every command may, and no more (60 R272). -/
theorem State.freeBits_of_illegal {s : State} {w : Word} {e : DecodeError} (hcmd : s.command = some w)
    (hdecode : decode w = .error e) (r : Reg) : s.freeBits r = Writes.mask {} r := by
  simp only [State.freeBits, hcmd, writesOfWord, hdecode]

/-- No command may write a bit of STATUS but FOUND, OVERRUN and ERRCODE. -/
theorem Writes.status_outside_mask (w : Writes) : ~~~w.mask .status &&& 0xFFFF0013 = 0xFFFF0013 := by
  rw [Writes.mask, maskIf, maskIf]
  cases w.found <;> cases w.cursor <;> decide

/-- A command that may write no register may write only ERRCODE, in STATUS. -/
theorem Writes.mask_none {r : Reg} (hr : r ≠ .status) : Writes.mask {} r = 0 := by
  cases r with
  | status => exact absurd rfl hr
  | dcPred c => cases c <;> rfl
  | matrix m j => cases m <;> rfl
  | _ => rfl

/-- Settles O51: the free bits are the mask of what the word in progress may write. -/
theorem busyReadsKeepTheUnwrittenBits : Obligations.BusyReadsKeepTheUnwrittenBits := by
  intro s w r hcmd
  have hkept := s.readReg_and_not_freeBits r
  refine ⟨fun i hdecode => ?_, fun e hdecode => ⟨fun hr => ?_, ?_⟩⟩
  · rw [State.freeBits_of_legal hcmd hdecode] at hkept
    refine ⟨hkept, ?_⟩
    rintro rfl
    exact and_eq_of_and_not_eq hkept (writesOf i).status_outside_mask
  · exact State.readReg_of_freeBits ((State.freeBits_of_illegal hcmd hdecode r).trans (Writes.mask_none hr))
  · rintro rfl
    rw [State.freeBits_of_illegal hcmd hdecode] at hkept
    exact and_eq_of_and_not_eq hkept (by decide)

end Sys2Proof.Machine
end

section
/-! SUPPORT. Every command completes when its buffer can be read (70_reset_and_hazards.md R314), racing stores included: no read of
the stream is rejected, whichever value a racing byte is drawn from (20_memory.md R69), so no part of a command is stuck. -/

namespace Sys2Proof.Machine

/-! ### Reads of a readable buffer -/

/-- A byte of the buffer reads as what its address holds or as one of the values it held, and none of these is missing. -/
theorem State.memRead_ne_none_of_readable {s : State} (hr : s.readable) (site i : Nat) {j : Nat} (hj : j < s.bsLen.toNat) :
    s.memRead site i (s.bsBase.toNat + j) ≠ none := by
  obtain ⟨hbuffer, hearlier⟩ := hr
  have hnow := Option.ne_none_iff_isSome.2 (hbuffer j hj)
  unfold State.memRead
  dsimp only
  split
  · exact hnow
  next c cs hraced =>
    have hheld : ∀ x ∈ Memory.read s.mem ((s.bsBase.toNat + j) % 2 ^ 32) :: (c :: cs).map (·.2), x ≠ none := by
      rw [← hraced]
      simp only [List.forall_mem_cons, List.forall_mem_map, List.mem_filter]
      exact ⟨hnow, fun d hd => Option.ne_none_iff_isSome.2 (hearlier d hd.1)⟩
    generalize Config.raceDraw _ _ _ _ % _ = k
    cases hdrawn : (Memory.read s.mem ((s.bsBase.toNat + j) % 2 ^ 32) :: (c :: cs).map (·.2))[k]? with
    | none => exact hnow
    | some x => exact hheld x (List.mem_of_getElem? hdrawn)

theorem State.bit_ne_none_of_readable {s : State} (hr : s.readable) (site i : Nat) : s.bit site i ≠ none := by
  unfold State.bit
  split
  next hi =>
    have hbyte : i / 8 < s.bsLen.toNat := Nat.div_lt_of_lt_mul hi
    exact fun hnone => State.memRead_ne_none_of_readable hr site i hbyte (Option.map_eq_none_iff.1 hnone)
  · exact nofun

theorem State.peek_ne_none_of_readable {s : State} (hr : s.readable) (n : Nat) : s.peek n ≠ none := fun hnone =>
  have ⟨_, _, hbit⟩ := State.peekLoop_eq_none_iff.1 hnone
  State.bit_ne_none_of_readable hr _ _ hbit

theorem State.startsWith_ne_none_of_readable {s : State} (hr : s.readable) (site code len i : Nat) :
    s.startsWith site code len i ≠ none := by
  induction len generalizing i with
  | zero => exact nofun
  | succ len ih =>
    rw [State.startsWith]
    split
    next hbit => exact absurd hbit (State.bit_ne_none_of_readable hr site i)
    · split
      · exact ih _
      · exact nofun

theorem State.findRow_ne_none_of_readable {α : Type} {s : State} (hr : s.readable) (table : List (VlcRow α)) (site : Nat) :
    s.findRow table site ≠ none := by
  induction table generalizing site with
  | nil => exact nofun
  | cons r rest ih =>
    rw [State.findRow]
    split
    next hrow => exact absurd hrow (State.startsWith_ne_none_of_readable hr _ _ _ _)
    · exact nofun
    · exact ih _

/-! ### Updates that leave the buffer readable -/

theorem State.readable_enterRow {s : State} (hr : s.readable) (row : Nat) : (s.enterRow row).readable := by
  unfold State.enterRow
  split <;> exact hr

theorem State.readable_setDcPred {s : State} (hr : s.readable) (c : Component) (v : BitVec 16) :
    (s.setDcPred c v).readable := by
  cases c <;> exact hr

theorem State.readable_mismatch {s : State} (hr : s.readable) (par : Bool) : (s.mismatch par).readable := by
  unfold State.mismatch
  split
  · exact hr
  · split <;> exact hr

/-! ### Parts of a command that are not stuck -/

/-- The part meets no rejected read, and where it goes on the buffer can still be read. -/
def Res.Unstuck {α : Type} (r : Res α) : Prop :=
  match r with
  | .ok _ t => t.readable
  | .error _ _ => True
  | .stuck => False

/-- The rule of a sequence: the second part starts from a buffer that can be read. -/
theorem Res.Unstuck.andThen {α β : Type} {r : Res α} {f : α → State → Res β} (h : r.Unstuck)
    (k : ∀ a t, t.readable → (f a t).Unstuck) : (r.andThen f).Unstuck := by
  cases r with
  | ok a t => exact k a t h
  | error c t => trivial
  | stuck => exact h.elim

/-- A command whose body is not stuck completes (70 R310). -/
theorem exists_complete_of_unstuck {body : State → Res Unit} {s : State} (h : (body s).Unstuck) :
    ∃ (u : State) (c : ResultCode), runCommand body s = .next (u.complete c) := by
  cases hbody : body s with
  | ok _ u => exact ⟨u, .ok, runCommand_ok hbody⟩
  | error c u => exact ⟨u, c, runCommand_error hbody⟩
  | stuck => rw [hbody] at h; exact h.elim

theorem ifLegal_unstuck {legal : Prop} [Decidable legal] {body : State → Res Unit} {s : State} (h : (body s).Unstuck) :
    (ifLegal legal body s).Unstuck := by
  unfold ifLegal
  split
  · exact h
  · trivial

theorem State.get_unstuck {s : State} (hr : s.readable) (n : Nat) : (s.get n).Unstuck := by
  unfold State.get
  split
  next hpeek => exact absurd hpeek (State.peek_ne_none_of_readable hr n)
  · exact hr

theorem State.vlc_unstuck {α : Type} {s : State} (hr : s.readable) (table : List (VlcRow α)) : (s.vlc table).Unstuck := by
  unfold State.vlc
  split
  next hrow => exact absurd hrow (State.findRow_ne_none_of_readable hr table vlcSite)
  · exact hr
  · exact hr

theorem peekBody_unstuck {s : State} (hr : s.readable) (n : Nat) : (peekBody n s).Unstuck := by
  unfold peekBody
  split
  next hpeek => exact absurd hpeek (State.peek_ne_none_of_readable hr n)
  · exact hr

theorem getBody_unstuck {s : State} (hr : s.readable) (n : Nat) : (getBody n s).Unstuck :=
  (State.get_unstuck hr n).andThen fun _ _ ht => ht

/-! ### Scans -/

theorem probeAny_ne_stuck {s : State} (hr : s.readable) : probeAny s ≠ .stuck := by
  unfold probeAny
  split
  · split
    next hpeek => exact absurd hpeek (State.peek_ne_none_of_readable hr 24)
    · split
      · split
        next hpeek => exact absurd hpeek (State.peek_ne_none_of_readable hr 32)
        · exact nofun
      · exact nofun
  · exact nofun

theorem probeCode_ne_stuck {s : State} (xx : Byte) (hr : s.readable) : probeCode xx s ≠ .stuck := by
  unfold probeCode
  split
  · split
    next hpeek => exact absurd hpeek (State.peek_ne_none_of_readable hr 32)
    · split <;> exact nofun
  · exact nofun

theorem scanLoop_unstuck {probe : State → Probe} (hprobe : ∀ t : State, t.readable → probe t ≠ .stuck) {s : State}
    (hr : s.readable) (fuel : Nat) : (scanLoop probe fuel s).Unstuck := by
  induction fuel generalizing s with
  | zero => exact hr
  | succ fuel ih =>
    unfold scanLoop
    split
    · exact hr
    · split
      · exact hr
      next hstuck => exact absurd hstuck (hprobe s hr)
      · exact ih hr

theorem scan_unstuck {probe : State → Probe} (hprobe : ∀ t : State, t.readable → probe t ≠ .stuck) {s : State}
    (hr : s.readable) : (scan probe s).Unstuck :=
  scanLoop_unstuck hprobe ((SameBuffer.align s).readable hr) _

/-! ### SLICE_HDR and QM_LOAD -/

theorem slicePosition_unstuck {s : State} (hr : s.readable) : (slicePosition s).Unstuck := by
  refine (State.get_unstuck (s := s.consume 24) hr 8).andThen fun xx t ht => ?_
  split
  · exact (State.get_unstuck ht 3).andThen fun _ _ hu => hu
  · exact ht

theorem extraLoop_unstuck {s : State} (hr : s.readable) (fuel : Nat) : (extraLoop fuel s).Unstuck := by
  induction fuel generalizing s with
  | zero => exact (State.get_unstuck hr 1).andThen fun _ _ ht => ht
  | succ fuel ih =>
    refine (State.get_unstuck hr 1).andThen fun b t ht => ?_
    split
    · exact ih (s := t.consume 8) ht
    · exact ht

theorem sliceHeader_unstuck {s : State} (hr : s.readable) : (sliceHeader s).Unstuck := by
  refine (slicePosition_unstuck hr).andThen fun pos t ht => ?_
  dsimp only
  split
  · have hrow := State.readable_enterRow (s := t.setResult pos) ht (pos - 1)
    refine (State.get_unstuck hrow 5).andThen fun q u hu => ?_
    exact (extraLoop_unstuck (s := u.setQscale _) hu _).andThen fun _ _ hv => hv
  · trivial

theorem loadWeights_unstuck {s : State} (hr : s.readable) (m : WeightSel) (ps : List Nat) : (loadWeights m ps s).Unstuck := by
  induction ps generalizing s with
  | nil => exact hr
  | cons p ps ih =>
    exact (State.get_unstuck hr 8).andThen fun b t ht => ih ((SameBuffer.setWeight t m p _).readable ht)

/-! ### The DEC commands -/

theorem escape_unstuck {s : State} (hr : s.readable) : (escape s).Unstuck := by
  unfold escape
  split
  · exact (State.get_unstuck hr 6).andThen fun _ _ ht => (State.get_unstuck ht 12).andThen fun _ _ hu => hu
  · refine (State.get_unstuck hr 6).andThen fun _ t ht => (State.get_unstuck ht 8).andThen fun b1 u hu => ?_
    split
    · exact (State.get_unstuck hu 8).andThen fun _ _ hv => hv
    · exact hu

theorem acSymbol_unstuck {s : State} (hr : s.readable) (table : AcTable) : (acSymbol table s).Unstuck := by
  refine (State.vlc_unstuck hr table).andThen fun sym t ht => ?_
  rcases sym with _ | _ | _ | ⟨run, a⟩
  · exact ht
  · exact ht
  · exact escape_unstuck ht
  · exact (State.get_unstuck ht 1).andThen fun _ _ hu => hu

theorem intraDc_unstuck {s : State} (hr : s.readable) (cc : Component) : (intraDc cc s).Unstuck := by
  refine Res.Unstuck.andThen ?_ fun _ t ht => State.readable_setDcPred ht cc _
  refine (State.vlc_unstuck hr _).andThen fun size t ht => ?_
  rcases size with _ | _ | size
  · trivial
  · exact ht
  · exact (State.get_unstuck ht _).andThen fun _ _ hu => hu

theorem place_unstuck {s : State} (hr : s.readable) (intra : Bool) (run : Nat) (level : Int) (g : Progress) :
    (place intra run level g s).Unstuck := by
  unfold place
  dsimp only
  split
  · trivial
  · exact hr

theorem firstNonIntra_unstuck {s : State} (hr : s.readable) (g : Progress) : (firstNonIntra g s).Unstuck := by
  unfold firstNonIntra
  split
  next hpeek => exact absurd hpeek (State.peek_ne_none_of_readable hr 1)
  · split
    · exact (State.get_unstuck (s := s.consume 1) hr 1).andThen fun _ _ ht => place_unstuck ht false 0 _ g
    · exact hr

theorem acLoop_unstuck {s : State} (hr : s.readable) (table : AcTable) (intra : Bool) (fuel : Nat) (g : Progress) :
    (acLoop table intra fuel g s).Unstuck := by
  induction fuel generalizing g s with
  | zero => trivial
  | succ fuel ih =>
    refine (acSymbol_unstuck hr table).andThen fun sym t ht => ?_
    rcases sym with _ | _ | ⟨run, level⟩
    · trivial
    · exact ht
    · exact (place_unstuck ht intra run level g).andThen fun g' _ hu => ih hu g'

theorem finishBlock_unstuck {s : State} (hr : s.readable) (g : Progress) : (finishBlock g s).Unstuck := by
  unfold finishBlock
  split
  · exact State.readable_mismatch hr g.par
  · exact hr

theorem decIntra_unstuck {s : State} (hr : s.readable) (table : AcTable) (cc : Component) : (decIntra table cc s).Unstuck := by
  refine (intraDc_unstuck (s := s.clearOutput) hr cc).andThen fun dc t ht => ?_
  refine Res.Unstuck.andThen (r := appendAt 1 0 dc ⟨0, false⟩ t) ht fun g u hu => ?_
  exact (acLoop_unstuck hu table true maxSymbols g).andThen fun g _ hv => finishBlock_unstuck hv g

theorem decNonintra_unstuck {s : State} (hr : s.readable) : (decNonintra s).Unstuck := by
  refine (firstNonIntra_unstuck (s := s.clearOutput) hr ⟨0, false⟩).andThen fun g t ht => ?_
  exact (acLoop_unstuck ht acTableZero false maxSymbols g).andThen fun g _ hu => finishBlock_unstuck hu g

/-! ### Every command -/

/-- A command on a readable buffer, a DEC_INTRA given its table, is the completion of some state. -/
theorem exec_completes {i : Instr} {s : State} (hr : s.readable) (htable : ∀ cc, i = .decIntra cc → s.intraTable ≠ none) :
    ∃ (u : State) (c : ResultCode), exec i s = .next (u.complete c) := by
  cases i with
  | nop => exact exists_complete_of_unstuck (body := fun s => .ok () s) hr
  | peek n => exact exists_complete_of_unstuck (ifLegal_unstuck (peekBody_unstuck hr n))
  | consume n => exact exists_complete_of_unstuck (ifLegal_unstuck (body := fun s => .ok () (s.consume n)) hr)
  | get n => exact exists_complete_of_unstuck (ifLegal_unstuck (getBody_unstuck hr n))
  | align => exact exists_complete_of_unstuck (body := fun s => .ok () s.align) ((SameBuffer.align s).readable hr)
  | scanAny => exact exists_complete_of_unstuck (scan_unstuck (fun _ => probeAny_ne_stuck) hr)
  | scanCode xx => exact exists_complete_of_unstuck (scan_unstuck (fun _ => probeCode_ne_stuck xx) hr)
  | sliceHdr => exact exists_complete_of_unstuck (sliceHeader_unstuck hr)
  | dcReset => exact exists_complete_of_unstuck (body := fun s => .ok () s.dcReset) hr
  | decIntra cc =>
    obtain ⟨table, hsome⟩ := Option.ne_none_iff_exists'.1 (htable cc rfl)
    rw [exec_decIntra hsome]
    exact exists_complete_of_unstuck (decIntra_unstuck hr table cc)
  | decNonintra => exact exists_complete_of_unstuck (decNonintra_unstuck hr)
  | qmDefault intra inter =>
    exact exists_complete_of_unstuck (ifLegal_unstuck (body := fun s => .ok () (qmDefaults intra inter s)) hr)
  | qmLoad m => exact exists_complete_of_unstuck (loadWeights_unstuck hr m zigzag)

/-- Settles O43: no part of a command is stuck, so the command completes, and a completion clears BUSY and sets DONE. -/
theorem everyCommandCompletes : Obligations.EveryCommandCompletes := by
  intro i s hr htable
  obtain ⟨u, c, hexec⟩ := exec_completes hr htable
  exact ⟨_, hexec, rfl, rfl, rfl⟩

end Sys2Proof.Machine
end
